-- ==== Sys2Proof/Word.lean ====
section
/-!
DEFINITION. The word types of MSD-CORE: `uN` of 00_scope.md R10 is an N-bit unsigned value.
-/

namespace Sys2Proof

/-- One byte of a frame or of a command payload (R11, R302). -/
abbrev Byte := BitVec 8

/-- A magnitude, and one entry of the ring (R110, R403). -/
abbrev Mag := BitVec 16

/-- An ICAO-24 address, a CRC-24 register, a ROM_CRC or ROM_SYN entry (R103, R104, R120). -/
abbrev U24 := BitVec 24

/-- The response register RES, a header or an immediate word (R131, R301, R302). -/
abbrev U32 := BitVec 32

/-- A count of ticks of the time base (R140), or the pattern of a binary64 register (R112). -/
abbrev U64 := BitVec 64

/-- The 14 payload bytes P[0..13] of a command (R302); also the 14 bytes of the frame buffer (R113). -/
abbrev Payload := Vector Byte 14

end Sys2Proof
end

