-- ==== Sys2Proof/Syntax.lean ====
section
/-!
DEFINITION. The instructions of MSD-CORE: one constructor for each row of spec/opcode_table.json
(the four RESERVED rows share a mnemonic and a constructor). A constructor carries EVERY field of
its row, the reserved ones too, because each command's pseudocode checks them itself (R303).
-/

namespace Sys2Proof

/-- The fields of the header word beside the operation code (R301): `rsv` is hdr[31:12], which must
be 0, and `len` is hdr[11:8]. -/
structure Hdr where
  rsv : BitVec 20
  len : BitVec 4
  deriving DecidableEq, Repr

/-- One operation of the block. The commands are R304's; `imm` is split into the fields of R305.
A command that does not read its payload carries none (R302: the bytes are never checked). -/
inductive Instr where
  /-- NOP, op 0x00 (R750). -/
  | nop (h : Hdr) (imm : U32)
  /-- START, op 0x01 (R751). -/
  | start (h : Hdr) (imm : U32)
  /-- STOP, op 0x02 (R752). -/
  | stop (h : Hdr) (imm : U32)
  /-- SAMPLE, op 0x03 (R702): `rsv` is imm[31:16], `i` imm[15:8], `q` imm[7:0]. -/
  | sample (h : Hdr) (rsv : BitVec 16) (i q : Byte)
  /-- SETLVL, op 0x04 (R754): `rsv` is imm[31:2], `level` imm[1:0]. -/
  | setlvl (h : Hdr) (rsv : BitVec 30) (level : BitVec 2)
  /-- SETTMO, op 0x05 (R755): `rsv` is imm[31:24], `seconds` imm[23:0]. -/
  | settmo (h : Hdr) (rsv : BitVec 8) (seconds : U24)
  /-- SWEEP, op 0x06 (R658). -/
  | sweep (h : Hdr) (imm : U32)
  /-- MAG, op 0x07 (R402): `rsv` is imm[31:16], `i` imm[15:8], `q` imm[7:0]. -/
  | mag (h : Hdr) (rsv : BitVec 16) (i q : Byte)
  /-- CRC, op 0x08 (R460). -/
  | crc (h : Hdr) (imm : U32) (payload : Payload)
  /-- SYN, op 0x09 (R461). -/
  | syn (h : Hdr) (imm : U32) (payload : Payload)
  /-- ERRBIT, op 0x0A (R462): the whole immediate word is the syndrome. -/
  | errbit (h : Hdr) (syndrome : U32)
  /-- GETDF, op 0x0B (R502). -/
  | getdf (h : Hdr) (imm : U32) (payload : Payload)
  /-- GETICAO, op 0x0C (R503). -/
  | geticao (h : Hdr) (imm : U32) (payload : Payload)
  /-- INJECT, op 0x0D (R660). -/
  | inject (h : Hdr) (imm : U32) (payload : Payload)
  /-- QUERY, op 0x0E (R661): `rsv` is imm[31:24], `icao` imm[23:0]. -/
  | query (h : Hdr) (rsv : BitVec 8) (icao : U24)
  /-- READ, op 0x0F (R758): `rsv` is imm[31:8], `index` imm[7:0]. -/
  | read (h : Hdr) (rsv : BitVec 24) (index : Byte)
  /-- A reserved operation code 0x10..0xFF (R303, R306): `hi` is op[7:4], `lo` op[3:0]. -/
  | reserved (hi lo : BitVec 4) (h : Hdr) (imm : U32)
  /-- One stream-port transfer, the word IIIIIIIIQQQQQQQQ (R330, R700). -/
  | streamSample (i q : Byte)
  /-- A received frame of downlink format 0 (R321): `low3` is f[0][2:0], `rest` is f[1..7]. -/
  | df0 (low3 : BitVec 3) (rest : Vector Byte 6)
  /-- A received frame of downlink format 4 (R321). -/
  | df4 (low3 : BitVec 3) (rest : Vector Byte 6)
  /-- A received frame of downlink format 5 (R321). -/
  | df5 (low3 : BitVec 3) (rest : Vector Byte 6)
  /-- A received frame of downlink format 11 (R321). -/
  | df11 (low3 : BitVec 3) (rest : Vector Byte 6)
  /-- A received frame of downlink format 16 (R321): `rest` is f[1..14]. -/
  | df16 (low3 : BitVec 3) (rest : Vector Byte 13)
  /-- A received frame of downlink format 17 (R321). -/
  | df17 (low3 : BitVec 3) (rest : Vector Byte 13)
  /-- A received frame of downlink format 18 (R321): `low3` is CF (R320). -/
  | df18 (low3 : BitVec 3) (rest : Vector Byte 13)
  /-- A received frame of downlink format 20 (R321). -/
  | df20 (low3 : BitVec 3) (rest : Vector Byte 13)
  /-- A received frame of downlink format 21 (R321). -/
  | df21 (low3 : BitVec 3) (rest : Vector Byte 13)
  /-- A received frame of downlink format 24 (R321). -/
  | df24 (low3 : BitVec 3) (rest : Vector Byte 13)
  /-- A received frame whose f[0][7:3] is no downlink format of R321 (row DF_INVALID); `df` is
  f[0][7:3]. Its values 25..31 are handled as DF 24 under DF24_FAMILY (R501, log 9). -/
  | dfInvalid (df : BitVec 5) (low3 : BitVec 3) (rest : Vector Byte 13)
  deriving DecidableEq, Repr

/-- One transfer on the command port (R300, R302): the header word, the immediate word and the 14
payload bytes. -/
structure Command where
  hdr : U32
  imm : U32
  payload : Payload
  deriving DecidableEq, Repr

/-- What reaches the decoder: a command-port transfer, a stream-port word (R330), or a received frame
in the 14-byte frame buffer, of which the downlink format says how many bytes it has (R322). -/
inductive Transfer where
  | command (c : Command)
  | stream (w : BitVec 16)
  | frame (buf : Payload)
  deriving DecidableEq, Repr

end Sys2Proof
end

