-- ==== Sys2Proof/WellFormed.lean ====
section
/-!
DEFINITION. When a term of `Instr` is one that some transfer encodes (`Instr.wf`), and when a command
is legal (`Instr.legal`, R303).
-/

namespace Sys2Proof

/-- The downlink formats of R321's enumerated set. -/
def knownDf : List (BitVec 5) := [0, 4, 5, 11, 16, 17, 18, 20, 21, 24]

/-- The term is what some transfer decodes to: a reserved operation code is 0x10 or more (R304), and
the DF_INVALID row holds no enumerated downlink format (R321). Every other field takes every value. -/
def Instr.wf : Instr → Bool
  | .reserved hi _ _ _ => hi != 0#4
  | .dfInvalid df _ _ => !knownDf.contains df
  | _ => true

/-- R303 for a command that does not use `len` and none of whose immediate bits is used. -/
def legalPlain (h : Hdr) (imm : U32) : Bool := h.rsv == 0#20 && h.len == 0#4 && imm == 0#32

/-- R303 for a command that does not use `len`, with the unused immediate bits `rsv`. -/
def legalImm (h : Hdr) (n : Nat) (rsv : BitVec n) : Bool := h.rsv == 0#20 && h.len == 0#4 && rsv == 0#n

/-- R303 for a command that uses `len` and no immediate bit. -/
def legalLen (h : Hdr) (imm : U32) : Bool := h.rsv == 0#20 && imm == 0#32

/-- R303: the operation code is assigned, the reserved header bits are 0, `len` is 0 where unused,
every unused immediate bit is 0 and every immediate field holds a legal value (R305). A stream-port
word is always legal (R330); a received frame is not a command and no legality rule applies to it. -/
def Instr.legal : Instr → Bool
  | .nop h imm | .start h imm | .stop h imm | .sweep h imm => legalPlain h imm
  | .getdf h imm _ => legalPlain h imm
  | .sample h rsv _ _ | .mag h rsv _ _ => legalImm h 16 rsv
  | .setlvl h rsv level => legalImm h 30 rsv && level != 3#2
  | .settmo h rsv _ | .query h rsv _ => legalImm h 8 rsv
  | .crc h imm _ | .syn h imm _ | .geticao h imm _ | .inject h imm _ => legalLen h imm
  | .errbit h _ => h.rsv == 0#20
  | .read h rsv index => legalImm h 24 rsv && index.toNat ≤ 5
  | .reserved _ _ _ _ => false
  | .streamSample _ _ => true
  | .df0 _ _ | .df4 _ _ | .df5 _ _ | .df11 _ _ => true
  | .df16 _ _ | .df17 _ _ | .df18 _ _ | .df20 _ _ | .df21 _ _ | .df24 _ _ => true
  | .dfInvalid _ _ _ => true

/-- The instruction is a command of the command port (R300), not a stream-port word or a frame. -/
def Instr.isCommand : Instr → Bool
  | .streamSample _ _ => false
  | .df0 _ _ | .df4 _ _ | .df5 _ _ | .df11 _ _ => false
  | .df16 _ _ | .df17 _ _ | .df18 _ _ | .df20 _ _ | .df21 _ _ | .df24 _ _ => false
  | .dfInvalid _ _ _ => false
  | _ => true

end Sys2Proof
end

