-- ==== Sys2Proof/Decode.lean ====
section
/-!
DEFINITION. The decoder of MSD-CORE (30_encoding.md R301-R307, R321, R330), total on every transfer,
and after it the encoder. The command map is R304's, the immediate fields are R305's. Nothing of the
header or the immediate word is dropped: an illegal command decodes too, and its meaning raises the
ILLEGAL of R303. A reserved operation code and an invalid downlink format decode to the rows
RESERVED and DF_INVALID, which reject them by name.
-/

namespace Sys2Proof

/-! ### Fields -/

/-- hdr[7:0], the operation code (R301). -/
def Command.op (c : Command) : Byte := c.hdr.extractLsb' 0 8

/-- hdr[31:12] and hdr[11:8] (R301). -/
def Command.fields (c : Command) : Hdr := ⟨c.hdr.extractLsb' 12 20, c.hdr.extractLsb' 8 4⟩

/-- imm[15:8] (R305). -/
def immI (imm : U32) : Byte := imm.extractLsb' 8 8

/-- imm[7:0] (R305). -/
def immQ (imm : U32) : Byte := imm.extractLsb' 0 8

/-! ### The decoder -/

/-- R304, R305: the command that a command-port transfer stands for. -/
def decodeCommand (c : Command) : Instr :=
  let h := c.fields
  let imm := c.imm
  match c.op.toNat with
  | 0x00 => .nop h imm
  | 0x01 => .start h imm
  | 0x02 => .stop h imm
  | 0x03 => .sample h (imm.extractLsb' 16 16) (immI imm) (immQ imm)
  | 0x04 => .setlvl h (imm.extractLsb' 2 30) (imm.extractLsb' 0 2)
  | 0x05 => .settmo h (imm.extractLsb' 24 8) (imm.extractLsb' 0 24)
  | 0x06 => .sweep h imm
  | 0x07 => .mag h (imm.extractLsb' 16 16) (immI imm) (immQ imm)
  | 0x08 => .crc h imm c.payload
  | 0x09 => .syn h imm c.payload
  | 0x0A => .errbit h imm
  | 0x0B => .getdf h imm c.payload
  | 0x0C => .geticao h imm c.payload
  | 0x0D => .inject h imm c.payload
  | 0x0E => .query h (imm.extractLsb' 24 8) (imm.extractLsb' 0 24)
  | 0x0F => .read h (imm.extractLsb' 8 24) (imm.extractLsb' 0 8)
  | _ => .reserved (c.op.extractLsb' 4 4) (c.op.extractLsb' 0 4) h imm

/-- R330: I in bits 15:8 of the stream word, Q in bits 7:0. -/
def decodeStream (w : BitVec 16) : Instr :=
  .streamSample (w.extractLsb' 8 8) (w.extractLsb' 0 8)

/-- f[1] .. f[6] of a received short frame (R321). -/
def shortRest (buf : Payload) : Vector Byte 6 :=
  #v[buf[1], buf[2], buf[3], buf[4], buf[5], buf[6]]

/-- f[1] .. f[13] of a received long frame (R321). -/
def longRest (buf : Payload) : Vector Byte 13 :=
  #v[buf[1], buf[2], buf[3], buf[4], buf[5], buf[6], buf[7], buf[8], buf[9], buf[10], buf[11],
    buf[12], buf[13]]

/-- R321, R322: the downlink format is f[0][7:3] and decides by itself how many bytes of the frame
buffer the frame has. -/
def decodeFrame (buf : Payload) : Instr :=
  let df : BitVec 5 := buf[0].extractLsb' 3 5
  let low3 : BitVec 3 := buf[0].extractLsb' 0 3
  match df.toNat with
  | 0 => .df0 low3 (shortRest buf)
  | 4 => .df4 low3 (shortRest buf)
  | 5 => .df5 low3 (shortRest buf)
  | 11 => .df11 low3 (shortRest buf)
  | 16 => .df16 low3 (longRest buf)
  | 17 => .df17 low3 (longRest buf)
  | 18 => .df18 low3 (longRest buf)
  | 20 => .df20 low3 (longRest buf)
  | 21 => .df21 low3 (longRest buf)
  | 24 => .df24 low3 (longRest buf)
  | _ => .dfInvalid df low3 (longRest buf)

/-- The instruction a transfer stands for. -/
def decode : Transfer → Instr
  | .command c => decodeCommand c
  | .stream w => decodeStream w
  | .frame buf => decodeFrame buf

/-! ### The encoder -/

/-- R301: hdr = rsv ++ len ++ op. -/
def encodeHdr (op : Byte) (h : Hdr) : U32 := (h.rsv ++ h.len ++ op : BitVec (20 + 4 + 8))

/-- A command transfer with operation code `op`. -/
def encodeCommand (op : Byte) (h : Hdr) (imm : U32) (payload : Payload) : Transfer :=
  .command ⟨encodeHdr op h, imm, payload⟩

/-- The payload of a command that reads none (R302: any bytes will do; the encoder writes zeros). -/
def noPayload : Payload := Vector.replicate 14 0#8

/-- The immediate word of SAMPLE and MAG (R305). -/
def encodeIQ (rsv : BitVec 16) (i q : Byte) : U32 := (rsv ++ i ++ q : BitVec (16 + 8 + 8))

/-- f[0] of a frame (R320): the downlink format in bits 7:3. -/
def frameByte0 (df : BitVec 5) (low3 : BitVec 3) : Byte := (df ++ low3 : BitVec (5 + 3))

/-- The frame buffer that holds a short frame: bytes 7..13 are 0 (R600). -/
def encodeShort (df : BitVec 5) (low3 : BitVec 3) (r : Vector Byte 6) : Transfer :=
  .frame #v[frameByte0 df low3, r[0], r[1], r[2], r[3], r[4], r[5], 0#8, 0#8, 0#8, 0#8, 0#8, 0#8, 0#8]

/-- The frame buffer that holds a long frame. -/
def encodeLong (df : BitVec 5) (low3 : BitVec 3) (r : Vector Byte 13) : Transfer :=
  .frame #v[frameByte0 df low3, r[0], r[1], r[2], r[3], r[4], r[5], r[6], r[7], r[8], r[9], r[10],
    r[11], r[12]]

/-- The transfer that stands for an instruction, from the same tables as the decoder. -/
def encode : Instr → Transfer
  | .nop h imm => encodeCommand 0x00 h imm noPayload
  | .start h imm => encodeCommand 0x01 h imm noPayload
  | .stop h imm => encodeCommand 0x02 h imm noPayload
  | .sample h rsv i q => encodeCommand 0x03 h (encodeIQ rsv i q) noPayload
  | .setlvl h rsv level => encodeCommand 0x04 h (rsv ++ level : BitVec (30 + 2)) noPayload
  | .settmo h rsv seconds => encodeCommand 0x05 h (rsv ++ seconds : BitVec (8 + 24)) noPayload
  | .sweep h imm => encodeCommand 0x06 h imm noPayload
  | .mag h rsv i q => encodeCommand 0x07 h (encodeIQ rsv i q) noPayload
  | .crc h imm p => encodeCommand 0x08 h imm p
  | .syn h imm p => encodeCommand 0x09 h imm p
  | .errbit h syndrome => encodeCommand 0x0A h syndrome noPayload
  | .getdf h imm p => encodeCommand 0x0B h imm p
  | .geticao h imm p => encodeCommand 0x0C h imm p
  | .inject h imm p => encodeCommand 0x0D h imm p
  | .query h rsv icao => encodeCommand 0x0E h (rsv ++ icao : BitVec (8 + 24)) noPayload
  | .read h rsv index => encodeCommand 0x0F h (rsv ++ index : BitVec (24 + 8)) noPayload
  | .reserved hi lo h imm => encodeCommand (hi ++ lo : BitVec (4 + 4)) h imm noPayload
  | .streamSample i q => .stream (i ++ q : BitVec (8 + 8))
  | .df0 low3 r => encodeShort 0 low3 r
  | .df4 low3 r => encodeShort 4 low3 r
  | .df5 low3 r => encodeShort 5 low3 r
  | .df11 low3 r => encodeShort 11 low3 r
  | .df16 low3 r => encodeLong 16 low3 r
  | .df17 low3 r => encodeLong 17 low3 r
  | .df18 low3 r => encodeLong 18 low3 r
  | .df20 low3 r => encodeLong 20 low3 r
  | .df21 low3 r => encodeLong 21 low3 r
  | .df24 low3 r => encodeLong 24 low3 r
  | .dfInvalid df low3 r => encodeLong df low3 r

/-! ### Table words -/

/-- Why a bit string is no transfer of the block. -/
inductive DecodeError where
  /-- No port of the block takes a transfer of this many bits (R300). -/
  | noPort (nbits : Nat)
  deriving DecidableEq, Repr

/-- Byte `j` of a word, byte 0 the least significant. -/
def wordByte (w j : Nat) : Byte := BitVec.ofNat 8 (w >>> (8 * j))

/-- The 14 payload bytes that stand above the 64-bit word hdr << 32 | imm (the table's format). DESIGN
CHOICE (log 31): P[0] is the lowest byte above bit 63 and each later byte stands above it; R302 gives the
payload no integer form. -/
def wordPayload (w : Nat) : Payload :=
  #v[wordByte w 8, wordByte w 9, wordByte w 10, wordByte w 11, wordByte w 12, wordByte w 13,
    wordByte w 14, wordByte w 15, wordByte w 16, wordByte w 17, wordByte w 18, wordByte w 19,
    wordByte w 20, wordByte w 21]

/-- A frame buffer whose f[0] is `b` and whose other bytes are 0. -/
def bufOfByte0 (b : Byte) : Payload := #v[b, 0#8, 0#8, 0#8, 0#8, 0#8, 0#8, 0#8, 0#8, 0#8, 0#8, 0#8, 0#8, 0#8]

/-- DESIGN CHOICE (log 32): the port a table word belongs to is told by its width: up to 8 bits a single
byte, up to 16 a stream word, up to 32 a header word alone, up to 22 bytes a whole command; what the word
does not hold is 0. DEDUCED (log 22): hdr stands in the high half. DESIGN CHOICE (log 10): a
single byte is f[0] of a frame where its bits 7:3 are a downlink format of R321 or where it is no
reserved operation code (0x08..0x0F), else hdr[7:0] of a command. The table gives both kinds 8 bits
and their patterns overlap. -/
def transferOfBits (nbits w : Nat) : Except DecodeError Transfer :=
  if nbits = 0 then .error (.noPort nbits)
  else if nbits ≤ 8 then
    let b : Byte := BitVec.ofNat 8 w
    if knownDf.contains (b.extractLsb' 3 5) || b.toNat < 0x10 then .ok (.frame (bufOfByte0 b))
    else .ok (.command ⟨b.setWidth 32, 0#32, noPayload⟩)
  else if nbits ≤ 16 then .ok (.stream (BitVec.ofNat 16 w))
  else if nbits ≤ 32 then .ok (.command ⟨BitVec.ofNat 32 w, 0#32, noPayload⟩)
  else if nbits ≤ 176 then
    .ok (.command ⟨BitVec.ofNat 32 (w >>> 32), BitVec.ofNat 32 w, wordPayload w⟩)
  else .error (.noPort nbits)

/-- The instruction of a bit string, or why there is none. -/
def decodeBits (nbits w : Nat) : Except DecodeError Instr :=
  match transferOfBits nbits w with
  | .ok t => .ok (decode t)
  | .error e => .error e

/-- The instruction the decoder reads from a word of spec/opcode_table.json. -/
def decodeTableWord (nbits w : Nat) : Option Instr :=
  match decodeBits nbits w with
  | .ok i => some i
  | .error _ => none

end Sys2Proof
end

