-- ==== Sys2Proof/Machine/Magnitude.lean ====
section
/-!
DEFINITION. The magnitude table (41_magnitude.md).
-/

namespace Sys2Proof.Machine

/-- x = (2I - 255)^2 + (2Q - 255)^2 (R400). -/
def magX (i q : Byte) : Nat :=
  ((2 * (i.toNat : Int) - 255) ^ 2 + (2 * (q.toNat : Int) - 255) ^ 2).toNat

/-- The constant A of R401: 258.433254 in millionths. -/
def magA : Nat := 258433254

/-- The constant C of R401: 365.4798 - 0.5 in millionths. -/
def magC : Nat := 364979800

/-- (10^6 k + C)^2 <= A^2 x, the test of R401. -/
def magFits (x k : Nat) : Bool := decide ((1000000 * k + magC) ^ 2 ≤ magA ^ 2 * x)

/-- The largest k below `acc + 2^n` that passes `magFits`, given that `acc` does; a binary search,
one bit of k at a time from the highest. -/
def magSearch (x : Nat) : Nat → Nat → Nat
  | 0, acc => acc
  | n + 1, acc => magSearch x n (if magFits x (acc + 2 ^ n) then acc + 2 ^ n else acc)

/-- min(n(x), 65535) where n(x) = max k with (10^6 k + C)^2 <= A^2 x: the integer definition that
R401 states equal to R400's formula on every entry (log 29). -/
def magOf (x : Nat) : Nat := magSearch x 16 0

/-- ROM_MAG[(I << 8) | Q] (R102, R400). -/
def romMag (i q : Byte) : Mag := BitVec.ofNat 16 (magOf (magX i q))

end Sys2Proof.Machine
end

