-- ==== Sys2Proof/Config.lean ====
section
/-!
DEFINITION. The implementation parameters of 00_scope.md R6 and the model's free value.
The rows of R6 marked fixed are plain constants; the rows marked OPEN are fields of `Config`,
so that a statement about every state is a statement about every configuration (log 1).
-/

namespace Sys2Proof

/-- PREV_AVG_SCOPE (R6, D8): whether prev_avg is cleared at the start of each slicing attempt. -/
inductive PrevAvgScope where
  | frame
  | session
  deriving DecidableEq, Repr

/-- SLICER_FP (R6, D7). The reference is binary64. PRESUMED: the spec leaves the parameter open and
names no second value; binary32 is the IEEE 754 format the model offers beside it (log 16). -/
inductive SlicerFp where
  | binary64
  | binary32
  deriving DecidableEq, Repr

/-- The parameters that R6 marks OPEN. Fixed for a machine: no step writes them. -/
structure Config where
  /-- SLICER_FP (D7). -/
  slicerFp : SlicerFp
  /-- PREV_AVG_SCOPE (D8). -/
  prevAvgScope : PrevAvgScope
  /-- THRESHOLD_MAP(Low), (Medium) and (High) (D20). DEDUCED: 32 bits, because READ 2 writes the
  value whole to RES (log 14). -/
  thresholdLow : U32
  thresholdMedium : U32
  thresholdHigh : U32
  /-- TICKS_PER_SECOND (D22). -/
  ticksPerSecond : Nat
  /-- TRUSTED_CAPACITY and CANDIDATE_CAPACITY (D25); `none` is unbounded. -/
  trustedCapacity : Option Nat
  candidateCapacity : Option Nat
  /-- EMIT_CORRECTED_PAYLOAD (D19). -/
  emitCorrectedPayload : Bool
  /-- DF24_FAMILY (D12). -/
  df24Family : Bool
  /-- DF11_MASKED_MATCH (D13). -/
  df11MaskedMatch : Bool
  deriving DecidableEq, Repr

namespace Config

/-- The reference configuration: the default column of R6. -/
def reference : Config where
  slicerFp := .binary64
  prevAvgScope := .frame
  thresholdLow := 1
  thresholdMedium := 2
  thresholdHigh := 5
  ticksPerSecond := 1000
  trustedCapacity := none
  candidateCapacity := none
  emitCorrectedPayload := false
  df24Family := false
  df11MaskedMatch := false

/-- R7: THRESHOLD_MAP maps no level to 0. -/
def wf (c : Config) : Bool :=
  c.thresholdLow != 0 && c.thresholdMedium != 0 && c.thresholdHigh != 0

/-- RING_LEN (R6). -/
abbrev ringLen : Nat := 240

/-- PREAMBLE_SAMPLES (R6). -/
abbrev preambleSamples : Nat := 16

/-- SWEEP_PERIOD_S (R6). -/
abbrev sweepPeriodS : Nat := 10

/-- ICAO_TIMEOUT_S, the reset value of TIMEOUT_S (R6). -/
abbrev icaoTimeoutS : BitVec 24 := 180

/-- The sweep period in ticks (R141, R657). -/
def sweepPeriod (c : Config) : Nat := sweepPeriodS * c.ticksPerSecond

/-- DESIGN CHOICE (log 13). A FREE VALUE: what the 64-bit register next_sweep holds after a sum
`base + period` that needs more than 64 bits. R141 gives the register 64 bits and no rule says what
such a sum leaves in it. The arguments are the base (a time or the old next_sweep) and the period. -/
opaque sweepOverflow : U64 → Nat → U64

end Config

end Sys2Proof
end

