-- ==== Sys2Proof/Machine/State.lean ====
section
/-!
DEFINITION. The state of MSD-CORE (10_state.md), its two ways to stop, and the state after reset.
The fields from `ring` to `held` are the spec's; `cfg`, `now`, `producer`, `hostQ` and `sched` are the
model's own (logs 1 to 4). The read-only tables are definitions, not fields (log 18).
-/

namespace Sys2Proof.Machine

/-- Why the machine stops with no next state. -/
inductive Fault where
  /-- Raised by a turn whose time input is lower than an earlier step's: such a step "has no move in
  the model" (R140, R841, K1.17). Safe: the spec gives it no behaviour. -/
  | timeReversed
  deriving DecidableEq, Repr

/-- Why the model answers nothing. -/
inductive Refusal where
  /-- An instruction with no meaning yet. No arm raises it. Safe. -/
  | notModelled (mnemonic : String)
  /-- Raised by every step of a machine whose configuration maps a level to the threshold 0: "A model
  must refuse a configuration that maps a level to 0" (R7). Safe. -/
  | thresholdZero
  deriving DecidableEq, Repr

/-- CTRL.LEVEL (R130): 0 Low, 1 Medium, 2 High. The code 3 "is never held". -/
inductive Level where
  | low
  | medium
  | high
  deriving DecidableEq, Repr

/-- CERR (R131): 0 OK, 1 ILLEGAL, 2 MISUSE. -/
inductive CErr where
  | ok
  | illegal
  | misuse
  deriving DecidableEq, Repr

/-- A finite map from ICAO-24 addresses, as (key, value) pairs with strictly rising keys (R120, R121;
the canonical form is `KeyMap.wf`). -/
abbrev KeyMap (β : Type) := List (U24 × β)

/-- The record of a Candidate key (R121). -/
structure CandidateEntry where
  lastSeen : U64
  validFrames : U32
  deriving DecidableEq, Repr

/-- An emitted-frame record (R150, R345): `payload` is the frame's bytes, `len` their number. -/
structure OutRecord where
  payload : List Byte
  len : Nat
  df : BitVec 5
  icao : U24
  deriving DecidableEq, Repr

/-- Who may take a step: the three agents of R9 and R840, the reset input (R901) and the consumer at
the frame output port (R707). -/
inductive Agent where
  | sampleEngine
  | sweepTimer
  | host
  | consumer
  | rst
  deriving DecidableEq, Repr

/-- One turn: whose it is, and the time input offered with it (R140). -/
structure Turn where
  agent : Agent
  now : U64
  deriving DecidableEq, Repr

structure State where
  /-- The implementation parameters (R6); written by no step. -/
  cfg : Config
  /-- The ring RAM (R110). -/
  ring : Vector Mag 240
  /-- The ring's write index (R111). -/
  cursor : Fin 240
  /-- The slicer's previous average, a binary64 register (R112). -/
  prevAvg : U64
  /-- The frame buffer (R113). -/
  fbuf : Vector Byte 14
  /-- The TrustedMap (R120). -/
  trusted : KeyMap U64
  /-- The CandidateMap (R121). -/
  candidate : KeyMap CandidateEntry
  /-- CTRL.RUN (R130). -/
  run : Bool
  /-- CTRL.LEVEL (R130). -/
  level : Level
  /-- TIMEOUT_S (R130). -/
  timeoutS : U24
  /-- STATUS.MISUSE, sticky (R130). -/
  misuse : Bool
  /-- STATUS.ILLEGAL, sticky (R130). -/
  illegal : Bool
  /-- STATUS.OVF, sticky (R130). -/
  ovf : Bool
  /-- RES, the response of the latest command (R131). -/
  res : U32
  /-- CERR, the error code of the latest command (R131). -/
  cerr : CErr
  /-- The time at which the sweep timer is next due (R141). -/
  nextSweep : U64
  /-- The emitted records, oldest first (R150). -/
  out : List OutRecord
  /-- The record at the frame output port that the consumer has not accepted (R707). -/
  held : Option OutRecord
  /-- MODEL: the time input of the latest step (R140, log 2). -/
  now : U64
  /-- MODEL: the stream words the producer offers, oldest first (R700, log 3). -/
  producer : List (BitVec 16)
  /-- MODEL: the commands the host offers, oldest first (R300, log 3). -/
  hostQ : List Command
  /-- MODEL: whose turn comes next (R840, log 3). -/
  sched : List Turn
  deriving DecidableEq, Repr

/-- R900 with now_reset = 0 (log 5), in the reference configuration (log 1), with nothing offered
from outside (log 4). -/
def State.reset : State where
  cfg := Config.reference
  ring := Vector.replicate 240 0#16
  cursor := 0
  prevAvg := 0#64
  fbuf := Vector.replicate 14 0#8
  trusted := []
  candidate := []
  run := false
  level := .medium
  timeoutS := Config.icaoTimeoutS
  misuse := false
  illegal := false
  ovf := false
  res := 0#32
  cerr := .ok
  nextSweep := 10000#64
  out := []
  held := none
  now := 0#64
  producer := []
  hostQ := []
  sched := []

end Sys2Proof.Machine
end

