-- ==== Sys2Proof/Machine/Flags.lean ====
section
/-!
DEFINITION. CTRL and STATUS: the only flags of the block (10_state.md R130, R132), and the codes of
CTRL.LEVEL and CERR.
-/

namespace Sys2Proof.Machine

/-- The 2-bit code of CTRL.LEVEL (R130). -/
def Level.code : Level → BitVec 2
  | .low => 0#2
  | .medium => 1#2
  | .high => 2#2

/-- The level a code of SETLVL names; 3 names none (R305, R754). -/
def levelOfCode (c : BitVec 2) : Option Level :=
  match c.toNat with
  | 0 => some .low
  | 1 => some .medium
  | 2 => some .high
  | _ => none

/-- The 2-bit code of CERR (R131). -/
def CErr.code : CErr → BitVec 2
  | .ok => 0#2
  | .illegal => 1#2
  | .misuse => 2#2

/-- THRESHOLD_MAP(LEVEL) (R653). -/
def threshold (cfg : Config) : Level → U32
  | .low => cfg.thresholdLow
  | .medium => cfg.thresholdMedium
  | .high => cfg.thresholdHigh

/-- A flag as a bit of a 32-bit word. -/
def flagBit (b : Bool) : U32 := if b then 1#32 else 0#32

/-- The word of READ 0 (R758): RUN in bit 0, MISUSE 1, ILLEGAL 2, OVF 3, LEVEL 5:4, the rest 0. -/
def statusWord (s : State) : U32 :=
  (s.level.code.setWidth 32 <<< 4) ||| (flagBit s.ovf <<< 3) ||| (flagBit s.illegal <<< 2)
    ||| (flagBit s.misuse <<< 1) ||| flagBit s.run

/-- STATUS.OVF <- 1 (R655). -/
def setOvf (s : State) : State := { s with ovf := true }

end Sys2Proof.Machine
end

