-- ==== Sys2Proof/Machine/KeyMap.lean ====
section
/-!
DEFINITION. The finite maps Trusted and Candidate (R14: has, lookup, insert-or-replace, remove), kept
with strictly rising keys so that equal maps are equal data.
-/

namespace Sys2Proof.Machine

/-- `M[k]`, and `none` where the key is absent (R14). -/
def KeyMap.find {β : Type} : KeyMap β → U24 → Option β
  | [], _ => none
  | (k', v) :: t, k => if k = k' then some v else KeyMap.find t k

/-- `M.has(k)` (R14). -/
def KeyMap.has {β : Type} (m : KeyMap β) (k : U24) : Bool := (KeyMap.find m k).isSome

/-- `M[k] <- v` (R14), keeping the keys in order. -/
def KeyMap.put {β : Type} : KeyMap β → U24 → β → KeyMap β
  | [], k, v => [(k, v)]
  | (k', v') :: t, k, v =>
    if k.toNat < k'.toNat then (k, v) :: (k', v') :: t
    else if k = k' then (k, v) :: t
    else (k', v') :: KeyMap.put t k v

/-- `M.remove(k)` (R14); no effect where the key is absent. -/
def KeyMap.remove {β : Type} : KeyMap β → U24 → KeyMap β
  | [], _ => []
  | (k', v') :: t, k => if k = k' then t else (k', v') :: KeyMap.remove t k

/-- The canonical form: keys strictly rising. -/
def KeyMap.wf {β : Type} : KeyMap β → Bool
  | [] => true
  | [_] => true
  | (k, _) :: (k', v') :: t => decide (k.toNat < k'.toNat) && KeyMap.wf ((k', v') :: t)

/-- The map has room for a new key (R124): fewer entries than its capacity, `none` being no bound. -/
def hasRoom (capacity : Option Nat) (size : Nat) : Bool :=
  match capacity with
  | none => true
  | some c => decide (size < c)

end Sys2Proof.Machine
end

