-- ==== Sys2Proof/Machine/Operands.lean ====
section
/-!
DEFINITION. The operand checks of the command pseudocode: what makes a command raise Illegal (R303).
Each is the condition of a pseudocode's first line.
-/

namespace Sys2Proof.Machine

/-- `hdr[31:12] != 0` (R460-R462, R503, R660). -/
def badRsv (h : Hdr) : Bool := h.rsv != 0#20

/-- `hdr[31:12] != 0 or len != 0`, for a command that does not use len (R301). -/
def badHdr (h : Hdr) : Bool := badRsv h || h.len != 0#4

/-- `hdr[31:12] != 0 or len != 0 or imm != 0` (R502, R658, R750-R752). -/
def badPlain (h : Hdr) (imm : U32) : Bool := badHdr h || imm != 0#32

/-- `hdr[31:12] != 0 or imm != 0`, for a command that uses len (R460, R461, R503, R660). -/
def badLenForm (h : Hdr) (imm : U32) : Bool := badRsv h || imm != 0#32

/-- `hdr[31:12] != 0 or len != 0 or` the unused immediate bits are not 0 (R402, R661, R702, R754, R755,
R758). -/
def badImm (h : Hdr) (n : Nat) (rsv : BitVec n) : Bool := badHdr h || rsv != 0#n

end Sys2Proof.Machine
end

