-- ==== Sys2Proof/Machine/Frame.lean ====
section
/-!
DEFINITION. Frames and their bits (00_scope.md R11, R12; 20_memory.md R200, R201).
-/

namespace Sys2Proof.Machine

/-- A frame of declared length `len` (R11). `bytes` holds its bytes f[0], f[1], ...; it has `len`
of them, but for a command with len = 15, whose byte f[14] no rule reads (R302). -/
structure Frame where
  len : Nat
  bytes : List Byte
  deriving DecidableEq, Repr

/-- f[j]. -/
def Frame.byte (f : Frame) (j : Nat) : Byte := f.bytes.getD j 0#8

/-- be(f, a, 3): three bytes read big-endian (R12, R201). -/
def Frame.be3 (f : Frame) (a : Nat) : U24 :=
  (f.byte a ++ f.byte (a + 1) ++ f.byte (a + 2) : BitVec (8 + 8 + 8))

/-- parity(f) = be(f, L-3, 3) (R12). Read only where L is 7 or 14. -/
def Frame.parity (f : Frame) : U24 := f.be3 (f.len - 3)

/-- The last three bytes are all zero (R606). -/
def Frame.tailZero (f : Frame) : Bool :=
  f.byte (f.len - 3) == 0#8 && f.byte (f.len - 2) == 0#8 && f.byte (f.len - 1) == 0#8

/-- The byte whose only set bit is frame bit `k` of its byte: 0x80 >> (k mod 8) (R11). -/
def bitMask (k : Nat) : Byte := 0x80#8 >>> (k % 8)

/-- fbit(f, k): bit (7 - k mod 8) of f[k div 8] (R11). -/
def Frame.bit (f : Frame) (k : Nat) : Bool := (f.byte (k / 8)).getLsbD (7 - k % 8)

/-- flip(f, k): f with frame bit k inverted (R11). -/
def Frame.flip (f : Frame) (k : Nat) : Frame :=
  { f with bytes := f.bytes.modify (k / 8) (fun b => b ^^^ bitMask k) }

/-- The frame a command takes: length L = len, f[j] = P[j] (R302). -/
def commandFrame (len : BitVec 4) (p : Payload) : Frame :=
  ⟨len.toNat, p.toList.take len.toNat⟩

/-- fbuf[0..n], the frame a slicing attempt ends with (R606). -/
def bufFrame (n : Nat) (buf : Vector Byte 14) : Frame := ⟨n, buf.toList.take n⟩

end Sys2Proof.Machine
end

