-- ==== Sys2Proof/Machine/Crc.lean ====
section
/-!
DEFINITION. The CRC-24 engine (42_crc.md): its table, the checksum, the syndrome, the two syndrome
tables and the error-bit locator.
-/

namespace Sys2Proof.Machine

/-- One of the eight rounds of R450: shift left and, if bit 24 came out, subtract 0x1FFF409 (whose low
24 bits are 0xFFF409). -/
def crcRound (c : U24) : U24 :=
  if c.msb then (c <<< 1) ^^^ 0xFFF409#24 else c <<< 1

/-- ROM_CRC[n] (R103, R450): eight rounds on n << 16. -/
def romCrc (n : Byte) : U24 :=
  crcRound (crcRound (crcRound (crcRound (crcRound (crcRound (crcRound (crcRound
    (n ++ (0 : BitVec 16) : BitVec (8 + 16)))))))))

/-- One step of the loop of R451: c <- ((c << 8) xor ROM_CRC[((c >> 16) xor f[j]) & 0xFF]) & 0xFFFFFF. -/
def crcStep (c : U24) (b : Byte) : U24 := (c <<< 8) ^^^ romCrc (c.extractLsb' 16 8 ^^^ b)

/-- The CRC-24 remainder over a list of bytes (R451). -/
def crcBytes (bs : List Byte) : U24 := bs.foldl crcStep 0#24

/-- CHECKSUM_SENTINEL (R6, R451). -/
def checksumSentinel : U32 := 0x0F000000#32

/-- A frame length the CRC engine accepts (R451). -/
def validLen (l : Nat) : Bool := l == 7 || l == 14

/-- The checksum of a frame of 7 or 14 bytes: over every byte but the final 3 (R451). -/
def checksum24 (f : Frame) : U24 := crcBytes (f.bytes.take (f.len - 3))

/-- checksum(f) (R451). -/
def checksum (f : Frame) : U32 :=
  if validLen f.len then (checksum24 f).setWidth 32 else checksumSentinel

/-- The syndrome of a frame of 7 or 14 bytes (R452). -/
def syndrome24 (f : Frame) : U24 := checksum24 f ^^^ f.parity

/-- syndrome(f) (R452). -/
def syndrome (f : Frame) : U32 :=
  if validLen f.len then (syndrome24 f).setWidth 32 else checksumSentinel

/-- Z_n, the all-zero frame of `l` bytes (R454). -/
def zeroFrame (l : Nat) : Frame := ⟨l, List.replicate l 0#8⟩

/-- ROM_SYN112[i] for l = 14 and ROM_SYN56[i] for l = 7 (R104, R454). -/
def romSyn (l i : Nat) : U24 := if i < 5 then 0#24 else syndrome24 ((zeroFrame l).flip i)

/-- error_bit(L, s) of R453, each table entry being compared as tab[i] & mask. R453 applies no mask;
only the DF11 match of DF11_MASKED_MATCH does (R505, D13). The positions are searched from 5 up, and
one is reported only if it is the single match. -/
def errorBitMasked (mask : U24) (l : Nat) (s : U32) : Option Nat :=
  if !validLen l || s == 0#32 then none
  else
    match (List.range (8 * l)).filter
        (fun i => decide (5 ≤ i) && (romSyn l i &&& mask).setWidth 32 == s) with
    | [i] => some i
    | _ => none

/-- error_bit(L, s) (R453); `none` is -1. -/
def errorBit (l : Nat) (s : U32) : Option Nat := errorBitMasked (BitVec.allOnes 24) l s

end Sys2Proof.Machine
end

