-- ==== Sys2Proof/Machine/Classifier.lean ====
section
/-!
DEFINITION. The frame classifier and the ICAO-24 extractor (43_classifier.md R500, R501, R504, R505).
-/

namespace Sys2Proof.Machine

/-- DownlinkFormat: the enumerated set of R500. -/
inductive DownlinkFormat where
  | df0
  | df4
  | df5
  | df11
  | df16
  | df17
  | df18
  | df20
  | df21
  | df24
  | invalid
  deriving DecidableEq, Repr

/-- class(d) (R504). -/
inductive FrameClass where
  | pi
  | ap
  | invalid
  deriving DecidableEq, Repr

/-- The DF value of a downlink format (R321). INVALID has none; it is never emitted or reported. -/
def DownlinkFormat.value : DownlinkFormat → BitVec 5
  | .df0 => 0
  | .df4 => 4
  | .df5 => 5
  | .df11 => 11
  | .df16 => 16
  | .df17 => 17
  | .df18 => 18
  | .df20 => 20
  | .df21 => 21
  | .df24 => 24
  | .invalid => 0

/-- class(d) (R504). -/
def DownlinkFormat.frameClass : DownlinkFormat → FrameClass
  | .df11 | .df17 | .df18 => .pi
  | .df0 | .df4 | .df5 | .df16 | .df20 | .df21 | .df24 => .ap
  | .invalid => .invalid

/-- len_of(d), the frame length in bytes (R321, R660); INVALID has none. -/
def DownlinkFormat.lenBytes : DownlinkFormat → Nat
  | .df0 | .df4 | .df5 | .df11 => 7
  | .df16 | .df17 | .df18 | .df20 | .df21 | .df24 => 14
  | .invalid => 0

/-- get_downlink_format(f) from f[0] (R500); `family` is DF24_FAMILY (R501). -/
def downlinkFormat (family : Bool) (b0 : Byte) : DownlinkFormat :=
  match (b0 >>> 3).toNat with
  | 0 => .df0
  | 4 => .df4
  | 5 => .df5
  | 11 => .df11
  | 16 => .df16
  | 17 => .df17
  | 18 => .df18
  | 20 => .df20
  | 21 => .df21
  | 24 => .df24
  | d => if family && decide (25 ≤ d) then .df24 else .invalid

/-- CF = f[0] & 7 (R320). -/
def frameCf (f : Frame) : BitVec 3 := (f.byte 0).extractLsb' 0 3

/-- The mask that drops the interrogator identifier of a DF11 syndrome (R323). -/
def df11Mask : U24 := 0xFFFF80#24

/-- The syndrome a PI frame is judged by: a DF11 syndrome loses its low 7 bits (R323, R505). -/
def piSyndrome (d : DownlinkFormat) (f : Frame) : U24 :=
  if d = .df11 then syndrome24 f &&& df11Mask else syndrome24 f

/-- The error position of a PI frame's syndrome `s` (R505): the literal match, but for a DF11 frame
under DF11_MASKED_MATCH (D13). -/
def piErrorBit (cfg : Config) (d : DownlinkFormat) (l : Nat) (s : U24) : Option Nat :=
  if cfg.df11MaskedMatch && d == .df11 then errorBitMasked df11Mask l (s.setWidth 32)
  else errorBit l (s.setWidth 32)

/-- The working copy of a PI frame that carries an address (R505): f itself where the (masked)
syndrome is 0, f with its one located bit flipped where that bit lies beyond the DF field, and `none`
where the frame is unrecoverable. -/
def piRepair (cfg : Config) (d : DownlinkFormat) (f : Frame) : Option Frame :=
  if piSyndrome d f = 0#24 then some f
  else
    match piErrorBit cfg d f.len (piSyndrome d f) with
    | none => none
    | some e => if e < 5 then none else some (f.flip e)

/-- get_icao(f) (R505); 0 is "no ICAO". -/
def getIcao (cfg : Config) (f : Frame) : U24 :=
  if !validLen f.len then 0#24
  else
    let d := downlinkFormat cfg.df24Family (f.byte 0)
    match d.frameClass with
    | .invalid => 0#24
    | .ap => syndrome24 f
    | .pi =>
      if d = .df18 ∧ frameCf f ≠ 0#3 then 0#24
      else
        match piRepair cfg d f with
        | none => 0#24
        | some g => g.be3 1

end Sys2Proof.Machine
end

