-- ==== Sys2Proof/Machine/Float.lean ====
section
/-!
DEFINITION. The floating-point arithmetic of the slicer (00_scope.md R13): IEEE 754 binary formats,
each operation correctly rounded to nearest, ties to even, with infinities and one NaN (log 17).

A finite value is an integer number of units, the unit being the format's smallest positive value, so
every exact result of +, -, * and / is a ratio of natural numbers and one rounding function serves
all four.
-/

namespace Sys2Proof.Machine

/-- A binary interchange format: the widths of its exponent and fraction fields. -/
structure FpFormat where
  expBits : Nat
  fracBits : Nat
  deriving DecidableEq, Repr

/-- The format SLICER_FP names (D7). -/
def fpFormat : SlicerFp → FpFormat
  | .binary64 => ⟨11, 52⟩
  | .binary32 => ⟨8, 23⟩

/-- The exponent field of infinities and NaNs: all ones. -/
def FpFormat.expMax (F : FpFormat) : Nat := 2 ^ F.expBits - 1

/-- The unit is 2^-scale: 2^-1074 in binary64. -/
def FpFormat.scale (F : FpFormat) : Nat := 2 ^ (F.expBits - 1) - 2 + F.fracBits

/-- The least number of units that is too large for a finite value: 2^1024 in binary64. -/
def FpFormat.limit (F : FpFormat) : Nat := 2 ^ (F.expMax - 1 + F.fracBits)

/-- A floating-point datum: `fin neg m` is plus or minus m units. -/
inductive FpVal where
  | nan
  | inf (neg : Bool)
  | fin (neg : Bool) (m : Nat)
  deriving DecidableEq, Repr

/-- `a / d` rounded to the nearest integer, ties to even. -/
def divNearest (a d : Nat) : Nat :=
  let q := a / d
  let r := a % d
  if 2 * r < d then q
  else if d < 2 * r then q + 1
  else if q % 2 = 0 then q else q + 1

/-- The number of low bits a value of about `q` units must drop to leave `fracBits + 1` of them. -/
def FpFormat.shift (F : FpFormat) (q : Nat) : Nat := q.log2 - F.fracBits

/-- The value nearest to plus or minus `a / d` units, ties to even; an infinity where the rounded
value is out of range. -/
def fpRound (F : FpFormat) (neg : Bool) (a d : Nat) : FpVal :=
  let t := F.shift (a / d)
  let m := divNearest a (d * 2 ^ t) * 2 ^ t
  if F.limit ≤ m then .inf neg else .fin neg m

/-- The exact number of units of a finite value, signed. -/
def signedUnits (neg : Bool) (m : Nat) : Int := if neg then -(m : Int) else (m : Int)

/-- The sum of two finite values. An exact zero sum is +0, but for the sum of two negative zeros. -/
def fpAddFin (F : FpFormat) (n1 : Bool) (m1 : Nat) (n2 : Bool) (m2 : Nat) : FpVal :=
  let z := signedUnits n1 m1 + signedUnits n2 m2
  if z = 0 then .fin (n1 && n2) 0 else fpRound F (decide (z < 0)) z.natAbs 1

/-- `+.` (R13). -/
def fpAdd (F : FpFormat) : FpVal → FpVal → FpVal
  | .nan, _ => .nan
  | _, .nan => .nan
  | .inf a, .inf b => if a = b then .inf a else .nan
  | .inf a, .fin _ _ => .inf a
  | .fin _ _, .inf b => .inf b
  | .fin a x, .fin b y => fpAddFin F a x b y

/-- The negation of a value, by its sign alone. -/
def fpNeg : FpVal → FpVal
  | .nan => .nan
  | .inf a => .inf (!a)
  | .fin a x => .fin (!a) x

/-- `-.` (R13). -/
def fpSub (F : FpFormat) (x y : FpVal) : FpVal := fpAdd F x (fpNeg y)

/-- `*.` (R13). -/
def fpMul (F : FpFormat) : FpVal → FpVal → FpVal
  | .nan, _ => .nan
  | _, .nan => .nan
  | .inf a, .inf b => .inf (a != b)
  | .inf a, .fin b y => if y = 0 then .nan else .inf (a != b)
  | .fin a x, .inf b => if x = 0 then .nan else .inf (a != b)
  | .fin a x, .fin b y => fpRound F (a != b) (x * y) (2 ^ F.scale)

/-- `/.` (R13). A nonzero value over a zero is an infinity. -/
def fpDiv (F : FpFormat) : FpVal → FpVal → FpVal
  | .nan, _ => .nan
  | _, .nan => .nan
  | .inf _, .inf _ => .nan
  | .inf a, .fin b _ => .inf (a != b)
  | .fin a _, .inf b => .fin (a != b) 0
  | .fin a x, .fin b y =>
    if y = 0 then (if x = 0 then .nan else .inf (a != b))
    else fpRound F (a != b) (x * 2 ^ F.scale) y

/-- `x >. y` (R13): the ordered comparison, false where an operand is NaN. -/
def fpGt : FpVal → FpVal → Bool
  | .nan, _ => false
  | _, .nan => false
  | .inf a, .inf b => !a && b
  | .inf a, .fin _ _ => !a
  | .fin _ _, .inf b => b
  | .fin a x, .fin b y => decide (signedUnits b y < signedUnits a x)

/-- f64(n), the conversion of a natural number (R13); exact for every magnitude. -/
def fpOfNat (F : FpFormat) (n : Nat) : FpVal := fpRound F false (n * 2 ^ F.scale) 1

/-- The constant 0.5 (R13). -/
def fpHalf (F : FpFormat) : FpVal := .fin false (2 ^ (F.scale - 1))

/-- The constant -20.0, AGC_FACTOR (R6, R13). -/
def fpAgcFactor (F : FpFormat) : FpVal := .fin true (20 * 2 ^ F.scale)

/-- The constant +0.0 (R13). -/
def fpZero : FpVal := .fin false 0

/-- The value a pattern of `1 + expBits + fracBits` bits stands for. -/
def fpDecode (F : FpFormat) (w : U64) : FpVal :=
  let frac := w.toNat % 2 ^ F.fracBits
  let e := w.toNat / 2 ^ F.fracBits % 2 ^ F.expBits
  let neg := w.toNat.testBit (F.expBits + F.fracBits)
  if e = F.expMax then (if frac = 0 then .inf neg else .nan)
  else if e = 0 then .fin neg frac
  else .fin neg ((2 ^ F.fracBits + frac) * 2 ^ (e - 1))

/-- The pattern, without its sign, of a finite value of `m` units. -/
def fpFinPattern (F : FpFormat) (m : Nat) : Nat :=
  F.shift m * 2 ^ F.fracBits + m / 2 ^ F.shift m

/-- The pattern of a value: what a register of the format holds. -/
def fpEncode (F : FpFormat) (x : FpVal) : U64 :=
  let signBit (neg : Bool) : Nat := if neg then 2 ^ (F.expBits + F.fracBits) else 0
  match x with
  | .nan => BitVec.ofNat 64 (F.expMax * 2 ^ F.fracBits + 2 ^ (F.fracBits - 1))
  | .inf neg => BitVec.ofNat 64 (signBit neg + F.expMax * 2 ^ F.fracBits)
  | .fin neg m => BitVec.ofNat 64 (signBit neg + fpFinPattern F m)

end Sys2Proof.Machine
end

