-- ==== Sys2Proof/Machine/Preamble.lean ====
section
/-!
DEFINITION. The ring read and the preamble detector (20_memory.md R205, 44_preamble.md R552-R556).
-/

namespace Sys2Proof.Machine

/-- ring_at(p, k) = ring[(p + k) mod 240] (R205). -/
def ringAt (ring : Vector Mag 240) (p : Fin 240) (k : Nat) : Nat :=
  (ring[(p.val + k) % 240]'(Nat.mod_lt _ (by decide))).toNat

/-- The shape test on b(k), all ten comparisons (R552). -/
def preambleShape (b : Nat → Nat) : Bool :=
  decide (b 0 > b 1) && decide (b 1 < b 2) && decide (b 2 > b 3) && decide (b 3 < b 0) &&
  decide (b 4 < b 0) && decide (b 5 < b 0) && decide (b 6 < b 0) &&
  decide (b 7 > b 8) && decide (b 8 < b 9) && decide (b 9 > b 6)

/-- high_avg, with HIGH_AVG_DIVISOR = 6 (R553). -/
def highAvg (b : Nat → Nat) : Nat := (b 0 + b 2 + b 7 + b 9) / 6

/-- The spike-gap test (R554). -/
def spikeGap (b : Nat → Nat) : Bool := decide (b 4 < highAvg b) && decide (b 5 < highAvg b)

/-- The quiet-zone test (R555). -/
def quietZone (b : Nat → Nat) : Bool :=
  decide (b 11 < highAvg b) && decide (b 12 < highAvg b) && decide (b 13 < highAvg b) &&
  decide (b 14 < highAvg b)

/-- All three tests on a window (R556). -/
def preambleWindow (b : Nat → Nat) : Bool := preambleShape b && spikeGap b && quietZone b

/-- preamble(p) (R556). -/
def preamble (ring : Vector Mag 240) (p : Fin 240) : Bool := preambleWindow (ringAt ring p)

end Sys2Proof.Machine
end

