-- ==== Sys2Proof/Machine/Slicer.lean ====
section
/-!
DEFINITION. The PPM bit slicer (45_slicer.md).
-/

namespace Sys2Proof.Machine

/-- How a sample step or INJECT ends (R705). -/
inductive FrameOutcome where
  | noPreamble
  | emitPi
  | emitApTrusted
  | emitApPromoted
  | apCandidate
  | byte0Zero
  | dfInvalid
  | tailZero
  | piUncorrectable
  | piNoAa
  | lenMismatch
  | candFull
  deriving DecidableEq, Repr

/-- The outcome codes of R705. -/
def FrameOutcome.code : FrameOutcome → U32
  | .noPreamble => 0
  | .emitPi => 1
  | .emitApTrusted => 2
  | .emitApPromoted => 3
  | .apCandidate => 4
  | .byte0Zero => 5
  | .dfInvalid => 6
  | .tailZero => 7
  | .piUncorrectable => 8
  | .piNoAa => 9
  | .lenMismatch => 10
  | .candFull => 11

/-- What agc_bit answers (R602): the corrected second half-chip, the new prev_avg, the bit. -/
structure AgcResult where
  s1c : FpVal
  avg : FpVal
  bit : Bool
  deriving DecidableEq, Repr

/-- (s1 +. s0) *. 0.5 (R602). -/
def fpAverage (F : FpFormat) (s1 s0 : FpVal) : FpVal := fpMul F (fpAdd F s1 s0) (fpHalf F)

/-- ((-20.0) *. (avg -. prev_avg)) /. avg (R602). -/
def agcCorrection (F : FpFormat) (avg prev : FpVal) : FpVal :=
  fpDiv F (fpMul F (fpAgcFactor F) (fpSub F avg prev)) avg

/-- agc_bit(s0, s1, prev_avg) (R602). -/
def agcBit (F : FpFormat) (s0 s1 prev : FpVal) : AgcResult :=
  let avg := fpAverage F s1 s0
  let corr := agcCorrection F avg prev
  if fpGt prev fpZero && fpGt corr fpZero then
    let s1c := fpAdd F s1 corr
    ⟨s1c, fpAverage F s1c s0, fpGt s0 s1c⟩
  else ⟨s1, avg, fpGt s0 s1⟩

/-- Bit storage: a 1 sets its frame bit, a 0 leaves the byte as it is (R603). -/
def storeBit (buf : Vector Byte 14) (b : Nat) (bit : Bool) : Vector Byte 14 :=
  if bit then buf.setIfInBounds (b / 8) (buf[b / 8]?.getD 0 ||| bitMask b) else buf

/-- The slicer's registers, fbuf and prev_avg (R608). -/
structure SliceRegs where
  fbuf : Vector Byte 14
  prevAvg : U64
  deriving DecidableEq, Repr

/-- One bit cell: agc_bit on cell(p, b), the new prev_avg, the bit stored (R600-R603). -/
def sliceBit (F : FpFormat) (ring : Vector Mag 240) (p : Fin 240) (r : SliceRegs) (b : Nat) :
    SliceRegs :=
  let a := agcBit F (fpOfNat F (ringAt ring p (16 + 2 * b))) (fpOfNat F (ringAt ring p (17 + 2 * b)))
    (fpDecode F r.prevAvg)
  ⟨storeBit r.fbuf b a.bit, fpEncode F a.avg⟩

/-- Bit cells start, start + 1, ..., start + n - 1 in order. -/
def sliceBits (F : FpFormat) (ring : Vector Mag 240) (p : Fin 240) (start : Nat) :
    Nat → SliceRegs → SliceRegs
  | 0, r => r
  | n + 1, r => sliceBit F ring p (sliceBits F ring p start n r) (start + n)

/-- How a slicing attempt ends: a frame, or an abort with its reason (R600, R607). -/
inductive SliceVerdict where
  | frame (f : Frame)
  | abort (reason : FrameOutcome)
  deriving DecidableEq, Repr

/-- The registers at the start of an attempt: fbuf cleared (D9), prev_avg cleared under the frame
scope (D8). -/
def sliceStart (cfg : Config) (prevAvg : U64) : SliceRegs :=
  ⟨Vector.replicate 14 0#8,
   match cfg.prevAvgScope with
   | .frame => 0#64
   | .session => prevAvg⟩

/-- slice(p) (R600). The loop over b is cut where it looks at what it has decoded: after bit 7
(R605) and after bit target - 1 (R606). -/
def slice (cfg : Config) (ring : Vector Mag 240) (p : Fin 240) (prevAvg : U64) :
    SliceVerdict × SliceRegs :=
  let F := fpFormat cfg.slicerFp
  let r := sliceBits F ring p 0 8 (sliceStart cfg prevAvg)
  if r.fbuf[0] = 0#8 then (.abort .byte0Zero, r)
  else
    let d := downlinkFormat cfg.df24Family r.fbuf[0]
    if d = .invalid then (.abort .dfInvalid, r)
    else
      let n := d.lenBytes
      let r' := sliceBits F ring p 8 (8 * n - 8) r
      let f := bufFrame n r'.fbuf
      if f.tailZero then (.abort .tailZero, r') else (.frame f, r')

end Sys2Proof.Machine
end

