-- ==== Sys2Proof/Machine/Ops.lean ====
section
/-!
DEFINITION. The named operations over the state: the response registers, raising ILLEGAL and MISUSE
(the block's only "exceptions": it has no trap and nothing to return from, R806, R807), emission, and
the writes to the maps.
-/

namespace Sys2Proof.Machine

/-- RES <- v; CERR <- OK: the end of a command's effect (R753). -/
def respond (s : State) (v : U32) : State := { s with res := v, cerr := .ok }

/-- `raise Illegal()` (R803): the sticky bit and the response, no other change. -/
def raiseIllegal (s : State) : State := { s with illegal := true, res := 0#32, cerr := .illegal }

/-- `raise Misuse()` (R804): the sticky bit and the response, no other change. -/
def raiseMisuse (s : State) : State := { s with misuse := true, res := 0#32, cerr := .misuse }

/-- The order of a command's checks (R753, R802): legality, misuse, effect. -/
def runCommand (bad misused : Bool) (effect s : State) :
    Host.Outcome State Fault Refusal :=
  if bad then .next (raiseIllegal s)
  else if misused then .next (raiseMisuse s)
  else .next effect

/-- SAMPLE and INJECT are "taken only when no record is held" at the output port (R707): until then
the command waits and nothing happens. -/
def whenPortFree (s : State) (taken : Host.Outcome State Fault Refusal) :
    Host.Outcome State Fault Refusal :=
  if s.held.isSome then .next s else taken

/-- `emit(rec)`: append to out and present at the output port (R706). -/
def emit (s : State) (r : OutRecord) : State := { s with out := s.out ++ [r], held := some r }

/-- The payload of a record as the frame output port carries it: 14 bytes, with bytes L..13 zero
(R345). -/
def portPayload (r : OutRecord) : Payload := Vector.ofFn fun j => r.payload.getD j.val 0#8

/-- `put_trusted(a, now)` (R655). -/
def putTrusted (s : State) (a : U24) : State :=
  if KeyMap.has s.trusted a || hasRoom s.cfg.trustedCapacity s.trusted.length then
    { s with trusted := KeyMap.put s.trusted a s.now }
  else setOvf s

/-- `Candidate.remove(a)` (R651, R652). -/
def dropCandidate (s : State) (a : U24) : State :=
  { s with candidate := KeyMap.remove s.candidate a }

/-- `put_candidate(a, rec)` for a key that is absent, with its outcome (R655). -/
def putCandidate (s : State) (a : U24) (r : CandidateEntry) : FrameOutcome × State :=
  if hasRoom s.cfg.candidateCapacity s.candidate.length then
    (.apCandidate, { s with candidate := KeyMap.put s.candidate a r })
  else (.candFull, setOvf s)

end Sys2Proof.Machine
end

