-- ==== Sys2Proof/Machine/Trust.lean ====
section
/-!
DEFINITION. The trust filter and the TTL sweep (46_trust_filter.md R650-R656), and what is done with a
frame once it is received.
-/

namespace Sys2Proof.Machine

/-- The payload of the emitted record (R654): the bytes as received, or under EMIT_CORRECTED_PAYLOAD
the working copy of a PI frame. -/
def emitPayload (cfg : Config) (d : DownlinkFormat) (f : Frame) : List Byte :=
  if cfg.emitCorrectedPayload && d.frameClass == .pi then
    match piRepair cfg d f with
    | some g => g.bytes
    | none => f.bytes
  else f.bytes

/-- The record of an accepted frame (R345, R654). -/
def frameRecord (cfg : Config) (d : DownlinkFormat) (f : Frame) (a : U24) : OutRecord :=
  ⟨emitPayload cfg d f, f.len, d.value, a⟩

/-- `emit_frame(f, d, a)` (R654). -/
def emitFrame (s : State) (d : DownlinkFormat) (f : Frame) (a : U24) : State :=
  emit s (frameRecord s.cfg d f a)

/-- `validate_pi(f, d, now)` (R651). -/
def validatePi (s : State) (d : DownlinkFormat) (f : Frame) : FrameOutcome × State :=
  if d = .df18 ∧ frameCf f ≠ 0#3 then (.piNoAa, s)
  else
    let a := getIcao s.cfg f
    if a = 0#24 then (.piUncorrectable, s)
    else (.emitPi, emitFrame (dropCandidate (putTrusted s a) a) d f a)

/-- Candidate.has(a) ? Candidate[a].valid_frames : 0 (R652). -/
def sightings (s : State) (a : U24) : Nat :=
  match KeyMap.find s.candidate a with
  | some r => r.validFrames.toNat
  | none => 0

/-- `validate_ap(f, d, now)` (R652). -/
def validateAp (s : State) (d : DownlinkFormat) (f : Frame) : FrameOutcome × State :=
  let a := syndrome24 f
  if KeyMap.has s.trusted a then
    (.emitApTrusted, emitFrame { s with trusted := KeyMap.put s.trusted a s.now } d f a)
  else
    let c := sightings s a
    if (threshold s.cfg s.level).toNat ≤ c + 1 then
      (.emitApPromoted, emitFrame (putTrusted (dropCandidate s a) a) d f a)
    else if KeyMap.has s.candidate a then
      (.apCandidate,
        { s with candidate := KeyMap.put s.candidate a ⟨s.now, BitVec.ofNat 32 (c + 1)⟩ })
    else putCandidate s a ⟨s.now, 1#32⟩

/-- `validate(f, now)` (R650). -/
def validate (s : State) (f : Frame) : FrameOutcome × State :=
  let d := downlinkFormat s.cfg.df24Family (f.byte 0)
  match d.frameClass with
  | .pi => validatePi s d f
  | _ => validateAp s d f

/-- What the block does with a received frame whose length is its format's: the slicer's checks in
their order (R605, R606, R802), then the trust filter (R650). -/
def receiveFrame (s : State) (f : Frame) : FrameOutcome × State :=
  if f.byte 0 = 0#8 then (.byte0Zero, s)
  else if downlinkFormat s.cfg.df24Family (f.byte 0) = .invalid then (.dfInvalid, s)
  else if f.tailZero then (.tailZero, s)
  else validate s f

/-- lim, the timeout in ticks (R656). -/
def timeoutTicks (s : State) : Nat := s.timeoutS.toNat * s.cfg.ticksPerSecond

/-- The entry last seen at `t` is kept by a sweep now: not now - t > lim (R656). A time later than now
is never stored by the host's duty of R140, and is kept (log 20). -/
def keeps (s : State) (t : U64) : Bool := !decide (timeoutTicks s < s.now.toNat - t.toNat)

/-- The maps after `sweep(now)` (R656). -/
def sweepMaps (s : State) : State :=
  { s with
    trusted := s.trusted.filter (fun e => keeps s e.2)
    candidate := s.candidate.filter (fun e => keeps s e.2.lastSeen) }

/-- The number of entries `sweep(now)` removes (R656). -/
def sweptCount (s : State) : Nat :=
  s.trusted.countP (fun e => !keeps s e.2) + s.candidate.countP (fun e => !keeps s e.2.lastSeen)

end Sys2Proof.Machine
end

