-- ==== Sys2Proof/Machine/Pipeline.lean ====
section
/-!
DEFINITION. The sample step and the two ways a sample comes in: the SAMPLE command and the stream port
(47_sample_pipeline.md R700-R702).
-/

namespace Sys2Proof.Machine

/-- The ring write and the cursor's advance, modulo 240 (R701). -/
def writeSample (s : State) (i q : Byte) : State :=
  { s with ring := s.ring.set s.cursor.val (romMag i q), cursor := s.cursor + 1 }

/-- The slicing attempt on the window that starts at the cursor; its registers are kept (R600, R701,
log 21). -/
def sliceWindow (s : State) : SliceVerdict × State :=
  let a := slice s.cfg s.ring s.cursor s.prevAvg
  (a.1, { s with fbuf := a.2.fbuf, prevAvg := a.2.prevAvg })

/-- `sample_step(I, Q, now)` (R701). -/
def sampleStep (s : State) (i q : Byte) : FrameOutcome × State :=
  let w := writeSample s i q
  if preamble w.ring w.cursor then
    match sliceWindow w with
    | (.abort reason, t) => (reason, t)
    | (.frame f, t) => validate t f
  else (.noPreamble, w)

/-- The stream port is ready exactly when RUN = 1 and no record is held (R700). -/
def streamReady (s : State) : Bool := s.run && s.held.isNone

/-- SAMPLE (R702): Misuse while the worker runs; it waits while a record is held (R707). -/
def execSample (h : Hdr) (rsv : BitVec 16) (i q : Byte) (s : State) :
    Host.Outcome State Fault Refusal :=
  whenPortFree s
    (runCommand (badImm h 16 rsv) s.run
      (respond (sampleStep s i q).2 (sampleStep s i q).1.code) s)

/-- One stream-port transfer (R700): a sample step that writes neither RES nor CERR (R131). A port that
is not ready takes nothing. -/
def execStreamSample (i q : Byte) (s : State) : Host.Outcome State Fault Refusal :=
  if streamReady s then .next (sampleStep s i q).2 else .next s

end Sys2Proof.Machine
end

