-- ==== Sys2Proof/Machine/Agents.lean ====
section
/-!
DEFINITION. The agents (60_exceptions.md R840) and how the next step is found: whose turn it is, whether
that agent has an enabled step, and the transfer it takes. The sweep timer's step (R657), reset (R900)
and the consumer's acceptance (R707) are given here whole; the sample engine and the host run an
instruction.
-/

namespace Sys2Proof.Machine

/-- A time plus a period, in 64 bits (R141, R657). Where the sum needs more, a free value (log 13). -/
def addTicks (base : U64) (period : Nat) : U64 :=
  if base.toNat + period < 2 ^ 64 then BitVec.ofNat 64 (base.toNat + period)
  else Config.sweepOverflow base period

/-- `timer_step(now)` (R657). -/
def timerStep (s : State) : State :=
  { sweepMaps s with nextSweep := addTicks s.nextSweep s.cfg.sweepPeriod }

/-- `reset(now_reset)` (R900), now_reset being the time input of the step. The configuration and what
lies outside the block stay. -/
def resetStep (s : State) : State :=
  { State.reset with
    cfg := s.cfg, now := s.now, producer := s.producer, hostQ := s.hostQ, sched := s.sched
    nextSweep := addTicks s.now s.cfg.sweepPeriod }

/-- The consumer accepts the record at the output port (R707, R810). -/
def acceptRecord (s : State) : State := { s with held := none }

/-- What a turn comes to. -/
inductive Move where
  /-- The agent has no enabled step: nothing of the block changes (R703). -/
  | still (s : State)
  /-- An agent's own step, already taken. -/
  | acts (s : State)
  /-- An instruction to run, in the state in which it runs. -/
  | runs (i : Instr) (s : State)
  /-- The step has no move (R841). -/
  | stuck (r : Fault)
  deriving DecidableEq, Repr

/-- R841: a step offered with a time input lower than an earlier step's has no move. -/
def atTime (s : State) (now : U64) (m : Move) : Move :=
  if now.toNat < s.now.toNat then .stuck .timeReversed else m

/-- SAMPLE and INJECT wait at the command port while a record is held (R707, R840). The command is told
by its operation code alone (log 7). -/
def commandWaits (s : State) (c : Command) : Bool :=
  s.held.isSome && (c.op == 0x03#8 || c.op == 0x0D#8)

/-- The turn of the sample engine (R700, R840). -/
def engineMove (s : State) (now : U64) : Move :=
  match s.producer with
  | [] => .still s
  | w :: rest =>
    if streamReady s then
      atTime s now (.runs (decodeStream w) { s with now := now, producer := rest })
    else .still s

/-- The turn of the host (R753, R840). -/
def hostMove (s : State) (now : U64) : Move :=
  match s.hostQ with
  | [] => .still s
  | c :: rest =>
    if commandWaits s c then .still s
    else atTime s now (.runs (decodeCommand c) { s with now := now, hostQ := rest })

/-- The turn of the sweep timer: enabled iff now >= next_sweep (R657). -/
def timerMove (s : State) (now : U64) : Move :=
  if s.nextSweep.toNat ≤ now.toNat then
    atTime s now (.acts (timerStep { s with now := now }))
  else .still s

/-- The turn of one agent. -/
def agentMove (s : State) (t : Turn) : Move :=
  match t.agent with
  | .sampleEngine => engineMove s t.now
  | .host => hostMove s t.now
  | .sweepTimer => timerMove s t.now
  | .consumer => .acts (acceptRecord s)
  | .rst => atTime s t.now (.acts (resetStep { s with now := t.now }))

/-- The next turn; with none left nobody steps (R703, R860). -/
def nextMove (s : State) : Move :=
  match s.sched with
  | [] => .still s
  | t :: rest => agentMove { s with sched := rest } t

/-! ### Offering one transfer (log 25) -/

/-- The level of sample `k` of the burst that carries a frame: the preamble's pulses (R336 PREAMBLE),
then two samples a bit (R336 PPM). -/
def burstHigh (buf : Payload) (k : Nat) : Bool :=
  if k < 16 then k == 0 || k == 2 || k == 7 || k == 9
  else
    let bit := (buf[(k - 16) / 16]?.getD 0#8).getLsbD (7 - (k - 16) / 2 % 8)
    if k % 2 = 0 then bit else !bit

/-- The stream word of a pulse, I = Q = 192, and of a gap, I = Q = 128. -/
def burstWord (high : Bool) : BitVec 16 := if high then 0xC0C0#16 else 0x8080#16

/-- The ring that holds the first 239 samples of the burst. -/
def burstRing (buf : Payload) : Vector Mag 240 :=
  Vector.ofFn fun k => if burstHigh buf k.val then romMag 192 192 else romMag 128 128

/-- One turn now for `a`, before every other. -/
def giveTurn (s : State) (a : Agent) : State := { s with sched := ⟨a, s.now⟩ :: s.sched }

/-- The state in which the very next step takes the transfer. A command is offered by the host; a
stream word by the producer, with the port ready; a frame by the last sample of a burst whose other
samples are in the ring. -/
def offerTransfer (s : State) : Transfer → State
  | .command c =>
    giveTurn { s with
      hostQ := c :: s.hostQ, held := if commandWaits s c then none else s.held } .host
  | .stream w => giveTurn { s with run := true, held := none, producer := w :: s.producer } .sampleEngine
  | .frame buf =>
    giveTurn { s with
      run := true, held := none, ring := burstRing buf, cursor := 239, prevAvg := 0#64
      producer := burstWord (burstHigh buf 239) :: s.producer } .sampleEngine

end Sys2Proof.Machine
end

