-- ==== Sys2Proof/Machine/Compute.lean ====
section
/-!
DEFINITION. The computing commands: MAG (R402), CRC, SYN, ERRBIT (R460-R462), GETDF, GETICAO (R502,
R503). They are legal in either RUN state, raise no Misuse and write RES and CERR only.
-/

namespace Sys2Proof.Machine

/-- MAG (R402). -/
def execMag (h : Hdr) (rsv : BitVec 16) (i q : Byte) (s : State) :
    Host.Outcome State Fault Refusal :=
  runCommand (badImm h 16 rsv) false (respond s ((romMag i q).setWidth 32)) s

/-- CRC (R460). -/
def execCrc (h : Hdr) (imm : U32) (p : Payload) (s : State) : Host.Outcome State Fault Refusal :=
  runCommand (badLenForm h imm) false (respond s (checksum (commandFrame h.len p))) s

/-- SYN (R461). -/
def execSyn (h : Hdr) (imm : U32) (p : Payload) (s : State) : Host.Outcome State Fault Refusal :=
  runCommand (badLenForm h imm) false (respond s (syndrome (commandFrame h.len p))) s

/-- sext_32 of an error position; -1 is 0xFFFFFFFF (R462). -/
def errorBitWord : Option Nat → U32
  | some e => BitVec.ofNat 32 e
  | none => BitVec.allOnes 32

/-- ERRBIT (R462). -/
def execErrbit (h : Hdr) (syndrome : U32) (s : State) : Host.Outcome State Fault Refusal :=
  runCommand (badRsv h) false (respond s (errorBitWord (errorBit h.len.toNat syndrome))) s

/-- The response of GETDF: the DF value, 0xFFFFFFFF for INVALID (R502). -/
def downlinkWord (d : DownlinkFormat) : U32 :=
  if d = .invalid then BitVec.allOnes 32 else d.value.setWidth 32

/-- GETDF (R502). -/
def execGetdf (h : Hdr) (imm : U32) (p : Payload) (s : State) : Host.Outcome State Fault Refusal :=
  runCommand (badPlain h imm) false (respond s (downlinkWord (downlinkFormat s.cfg.df24Family p[0]))) s

/-- GETICAO (R503). -/
def execGeticao (h : Hdr) (imm : U32) (p : Payload) (s : State) :
    Host.Outcome State Fault Refusal :=
  runCommand (badLenForm h imm) false
    (respond s ((getIcao s.cfg (commandFrame h.len p)).setWidth 32)) s

end Sys2Proof.Machine
end

