-- ==== Sys2Proof/Machine/Control.lean ====
section
/-!
DEFINITION. The control, configuration and status commands (48_control.md), and the reserved
operation codes (30_encoding.md R303, R306).
-/

namespace Sys2Proof.Machine

/-- NOP (R750). -/
def execNop (h : Hdr) (imm : U32) (s : State) : Host.Outcome State Fault Refusal :=
  runCommand (badPlain h imm) false (respond s 0#32) s

/-- START (R751): Misuse where the worker already runs. -/
def execStart (h : Hdr) (imm : U32) (s : State) : Host.Outcome State Fault Refusal :=
  runCommand (badPlain h imm) s.run (respond { s with run := true } 0#32) s

/-- STOP (R752). -/
def execStop (h : Hdr) (imm : U32) (s : State) : Host.Outcome State Fault Refusal :=
  runCommand (badPlain h imm) false (respond { s with run := false } 0#32) s

/-- SETLVL (R754): the code 3 is illegal and leaves LEVEL unchanged. -/
def execSetlvl (h : Hdr) (rsv : BitVec 30) (level : BitVec 2) (s : State) :
    Host.Outcome State Fault Refusal :=
  match levelOfCode level with
  | some l => runCommand (badImm h 30 rsv) false (respond { s with level := l } 0#32) s
  | none => .next (raiseIllegal s)

/-- SETTMO (R755). -/
def execSettmo (h : Hdr) (rsv : BitVec 8) (seconds : U24) (s : State) :
    Host.Outcome State Fault Refusal :=
  runCommand (badImm h 8 rsv) false (respond { s with timeoutS := seconds } 0#32) s

/-- min(n, 2^32 - 1) as a 32-bit word (R758). -/
def cappedCount (n : Nat) : U32 := BitVec.ofNat 32 (min n (2 ^ 32 - 1))

/-- The word of READ `index` (R758), and `none` for the indices 6..255. -/
def readWord (s : State) (index : Byte) : Option U32 :=
  match index.toNat with
  | 0 => some (statusWord s)
  | 1 => some (s.timeoutS.setWidth 32)
  | 2 => some (threshold s.cfg s.level)
  | 3 => some (cappedCount s.trusted.length)
  | 4 => some (cappedCount s.candidate.length)
  | 5 => some (BitVec.ofNat 32 s.cursor.val)
  | _ => none

/-- READ (R758). -/
def execRead (h : Hdr) (rsv : BitVec 24) (index : Byte) (s : State) :
    Host.Outcome State Fault Refusal :=
  match readWord s index with
  | some v => runCommand (badImm h 24 rsv) false (respond s v) s
  | none => .next (raiseIllegal s)

/-- A reserved operation code: "refused as ILLEGAL whatever the other fields hold" (R303, R306). -/
def execReserved (_hi _lo : BitVec 4) (_h : Hdr) (_imm : U32) (s : State) :
    Host.Outcome State Fault Refusal :=
  .next (raiseIllegal s)

end Sys2Proof.Machine
end

