-- ==== Sys2Proof/Machine/FrameRows.lean ====
section
/-!
DEFINITION. The rows of R321: what the block does with a received frame of each downlink format, that
is, the part of a sample step after slicing (R605, R606, R650; log 8). Such a frame is received only
while no record is held, like the sample whose step it is part of (R700, R707). No row reports its
outcome: "a stream-port step reports it nowhere" (R705).
-/

namespace Sys2Proof.Machine

/-- The short frame with downlink format `df` (R321). -/
def shortFrame (df : BitVec 5) (low3 : BitVec 3) (r : Vector Byte 6) : Frame :=
  ⟨7, frameByte0 df low3 :: r.toList⟩

/-- The long frame with downlink format `df` (R321). -/
def longFrame (df : BitVec 5) (low3 : BitVec 3) (r : Vector Byte 13) : Frame :=
  ⟨14, frameByte0 df low3 :: r.toList⟩

/-- The reception of one frame. -/
def execFrame (f : Frame) (s : State) : Host.Outcome State Fault Refusal :=
  whenPortFree s (.next (receiveFrame s f).2)

/-- DF0 (R321): class AP, 7 bytes; f[0] = 0 is BYTE0_ZERO (R605). -/
def execDf0 (low3 : BitVec 3) (r : Vector Byte 6) (s : State) : Host.Outcome State Fault Refusal :=
  execFrame (shortFrame 0 low3 r) s

/-- DF4 (R321): class AP, 7 bytes. -/
def execDf4 (low3 : BitVec 3) (r : Vector Byte 6) (s : State) : Host.Outcome State Fault Refusal :=
  execFrame (shortFrame 4 low3 r) s

/-- DF5 (R321): class AP, 7 bytes. -/
def execDf5 (low3 : BitVec 3) (r : Vector Byte 6) (s : State) : Host.Outcome State Fault Refusal :=
  execFrame (shortFrame 5 low3 r) s

/-- DF11 (R321): class PI, 7 bytes, the syndrome masked. -/
def execDf11 (low3 : BitVec 3) (r : Vector Byte 6) (s : State) : Host.Outcome State Fault Refusal :=
  execFrame (shortFrame 11 low3 r) s

/-- DF16 (R321): class AP, 14 bytes. -/
def execDf16 (low3 : BitVec 3) (r : Vector Byte 13) (s : State) : Host.Outcome State Fault Refusal :=
  execFrame (longFrame 16 low3 r) s

/-- DF17 (R321): class PI, 14 bytes. -/
def execDf17 (low3 : BitVec 3) (r : Vector Byte 13) (s : State) : Host.Outcome State Fault Refusal :=
  execFrame (longFrame 17 low3 r) s

/-- DF18 (R321): class PI, 14 bytes; CF other than 0 carries no AA (R651). -/
def execDf18 (low3 : BitVec 3) (r : Vector Byte 13) (s : State) : Host.Outcome State Fault Refusal :=
  execFrame (longFrame 18 low3 r) s

/-- DF20 (R321): class AP, 14 bytes. -/
def execDf20 (low3 : BitVec 3) (r : Vector Byte 13) (s : State) : Host.Outcome State Fault Refusal :=
  execFrame (longFrame 20 low3 r) s

/-- DF21 (R321): class AP, 14 bytes. -/
def execDf21 (low3 : BitVec 3) (r : Vector Byte 13) (s : State) : Host.Outcome State Fault Refusal :=
  execFrame (longFrame 21 low3 r) s

/-- DF24 (R321): class AP, 14 bytes. -/
def execDf24 (low3 : BitVec 3) (r : Vector Byte 13) (s : State) : Host.Outcome State Fault Refusal :=
  execFrame (longFrame 24 low3 r) s

/-- DF_INVALID (R321): dropped silently (R605, R805), but for DF 25..31 under DF24_FAMILY, which are
handled as DF 24 (R501, log 9). -/
def execDfInvalid (df : BitVec 5) (low3 : BitVec 3) (r : Vector Byte 13) (s : State) :
    Host.Outcome State Fault Refusal :=
  execFrame (longFrame df low3 r) s

end Sys2Proof.Machine
end

