-- ==== Sys2Proof/Machine/TrustCommands.lean ====
section
/-!
DEFINITION. The trust commands SWEEP (R658), INJECT (R660) and QUERY (R661).
-/

namespace Sys2Proof.Machine

/-- SWEEP (R658): next_sweep is unchanged. -/
def execSweep (h : Hdr) (imm : U32) (s : State) : Host.Outcome State Fault Refusal :=
  runCommand (badPlain h imm) false (respond (sweepMaps s) (BitVec.ofNat 32 (sweptCount s))) s

/-- The checks of INJECT in R660's order, then the trust filter. The first two look at P[0], whatever
the declared length. -/
def injectFrame (s : State) (len : BitVec 4) (p : Payload) : FrameOutcome × State :=
  let d := downlinkFormat s.cfg.df24Family p[0]
  let f := commandFrame len p
  if p[0] = 0#8 then (.byte0Zero, s)
  else if d = .invalid then (.dfInvalid, s)
  else if len.toNat ≠ d.lenBytes then (.lenMismatch, s)
  else if f.tailZero then (.tailZero, s)
  else validate s f

/-- INJECT (R660): Misuse while the worker runs; it waits while a record is held (R707). -/
def execInject (h : Hdr) (imm : U32) (p : Payload) (s : State) :
    Host.Outcome State Fault Refusal :=
  whenPortFree s
    (runCommand (badLenForm h imm) s.run
      (respond (injectFrame s h.len p).2 (injectFrame s h.len p).1.code) s)

/-- The word of QUERY (R661): bit 0 trusted, bit 1 candidate, the count above bit 8. -/
def queryWord (s : State) (a : U24) : U32 :=
  let n : Nat := min (sightings s a) 0xFFFFFF
  (BitVec.ofNat 32 n <<< 8) ||| (flagBit (KeyMap.has s.candidate a) <<< 1)
    ||| flagBit (KeyMap.has s.trusted a)

/-- QUERY (R661). -/
def execQuery (h : Hdr) (rsv : BitVec 8) (icao : U24) (s : State) :
    Host.Outcome State Fault Refusal :=
  runCommand (badImm h 8 rsv) false (respond s (queryWord s icao)) s

end Sys2Proof.Machine
end

