-- ==== Sys2Proof/Machine/Dispatch.lean ====
section
/-! DEFINITION. The meaning of each instruction: one arm a constructor of `Instr`. -/

namespace Sys2Proof.Machine

def exec (i : Instr) (s : State) : Host.Outcome State Fault Refusal :=
  match i with
  | .nop h imm => Sys2Proof.Machine.execNop h imm s
  | .start h imm => Sys2Proof.Machine.execStart h imm s
  | .stop h imm => Sys2Proof.Machine.execStop h imm s
  | .sample h rsv x q => Sys2Proof.Machine.execSample h rsv x q s
  | .setlvl h rsv level => Sys2Proof.Machine.execSetlvl h rsv level s
  | .settmo h rsv seconds => Sys2Proof.Machine.execSettmo h rsv seconds s
  | .sweep h imm => Sys2Proof.Machine.execSweep h imm s
  | .mag h rsv x q => Sys2Proof.Machine.execMag h rsv x q s
  | .crc h imm p => Sys2Proof.Machine.execCrc h imm p s
  | .syn h imm p => Sys2Proof.Machine.execSyn h imm p s
  | .errbit h syndrome => Sys2Proof.Machine.execErrbit h syndrome s
  | .getdf h imm p => Sys2Proof.Machine.execGetdf h imm p s
  | .geticao h imm p => Sys2Proof.Machine.execGeticao h imm p s
  | .inject h imm p => Sys2Proof.Machine.execInject h imm p s
  | .query h rsv icao => Sys2Proof.Machine.execQuery h rsv icao s
  | .read h rsv index => Sys2Proof.Machine.execRead h rsv index s
  | .reserved hi lo h imm => Sys2Proof.Machine.execReserved hi lo h imm s
  | .streamSample x q => Sys2Proof.Machine.execStreamSample x q s
  | .df0 low3 r => Sys2Proof.Machine.execDf0 low3 r s
  | .df4 low3 r => Sys2Proof.Machine.execDf4 low3 r s
  | .df5 low3 r => Sys2Proof.Machine.execDf5 low3 r s
  | .df11 low3 r => Sys2Proof.Machine.execDf11 low3 r s
  | .df16 low3 r => Sys2Proof.Machine.execDf16 low3 r s
  | .df17 low3 r => Sys2Proof.Machine.execDf17 low3 r s
  | .df18 low3 r => Sys2Proof.Machine.execDf18 low3 r s
  | .df20 low3 r => Sys2Proof.Machine.execDf20 low3 r s
  | .df21 low3 r => Sys2Proof.Machine.execDf21 low3 r s
  | .df24 low3 r => Sys2Proof.Machine.execDf24 low3 r s
  | .dfInvalid df low3 r => Sys2Proof.Machine.execDfInvalid df low3 r s

end Sys2Proof.Machine
end

