-- ==== Sys2Proof/Machine/Step.lean ====
section
/-!
DEFINITION. One step of the machine: the next turn's agent takes its step (R840). A machine whose
configuration maps a level to threshold 0 is refused (R7).
-/

namespace Sys2Proof.Machine

def step (s : State) : Host.Outcome State Fault Refusal :=
  if s.cfg.wf then
    match nextMove s with
    | .still t => .next t
    | .acts t => .next t
    | .runs i t => exec i t
    | .stuck r => .fault r
  else .refused .thresholdZero

/-- The state in which the very next step takes the transfer a table word stands for (log 25). -/
def State.withFetchWord (s : State) (nbits w : Nat) : State :=
  match transferOfBits nbits w with
  | .ok t => offerTransfer s t
  | .error _ => s

end Sys2Proof.Machine
end

