-- ==== Sys2Proof/Safety.lean ====
section
/-!
DEFINITION. What claims say of a state: the invariants the spec gives it, and what a safe step is.
-/

namespace Sys2Proof.Machine

/-- R122: no key is in both Trusted and Candidate. -/
def State.disjointMaps (s : State) : Prop :=
  ∀ a : U24, ¬(KeyMap.has s.trusted a = true ∧ KeyMap.has s.candidate a = true)

/-- Both maps keep their canonical form and are disjoint (R122). -/
def State.mapsOk (s : State) : Prop :=
  KeyMap.wf s.trusted = true ∧ KeyMap.wf s.candidate = true ∧ s.disjointMaps

/-- Every stored time is no later than the time input of the latest step (R140, R656, R926). -/
def State.timesOk (s : State) : Prop :=
  (∀ e ∈ s.trusted, e.2.toNat ≤ s.now.toNat) ∧
    ∀ e ∈ s.candidate, e.2.lastSeen.toNat ≤ s.now.toNat

/-- R123: every Candidate entry has valid_frames >= 1. -/
def State.countsOk (s : State) : Prop := ∀ e ∈ s.candidate, 1 ≤ e.2.validFrames.toNat

/-- Neither map has more entries than its capacity (R124). -/
def State.capacityOk (s : State) : Prop :=
  (∀ c, s.cfg.trustedCapacity = some c → s.trusted.length ≤ c) ∧
    ∀ c, s.cfg.candidateCapacity = some c → s.candidate.length ≤ c

/-- The shape of an emitted record (R345): 7 or 14 bytes, as many as `len` says, and a DF value of
R321. -/
def OutRecord.shapeOk (r : OutRecord) : Prop :=
  (r.len = 7 ∨ r.len = 14) ∧ r.payload.length = r.len ∧ r.df ∈ knownDf

/-- Every emitted record has its shape, and the record held at the output port is the latest one
(R150, R706, R707). -/
def State.outOk (s : State) : Prop :=
  (∀ r ∈ s.out, r.shapeOk) ∧ ∀ r, s.held = some r → s.out.getLast? = some r

/-- A step is safe where it neither faults nor is refused. -/
def safeStep (s : State) : Prop := ∃ t, step s = .next t

end Sys2Proof.Machine
end

