-- ==== Sys2Proof/Certificates/Slice0/Obligations.lean ====
section
/-!
DEFINITION. The statements for the provers. Each is `def Obligations.<Name> : Prop`; what they share
stands first, under `Sys2Proof.Claims`.
-/

namespace Sys2Proof.Claims

open Sys2Proof.Machine

/-! ### Commands as words -/

/-- hdr[7:0] (R301). -/
def op (c : Command) : Byte := c.hdr.extractLsb' 0 8

/-- hdr[11:8] (R301). -/
def len (c : Command) : Nat := (c.hdr.extractLsb' 8 4).toNat

/-- hdr[31:12] = 0 (R301). -/
def reservedZero (c : Command) : Prop := c.hdr.extractLsb' 12 20 = 0#20

/-- RES <- v; CERR <- OK. -/
def answered (s : State) (v : U32) : State := { s with res := v, cerr := .ok }

/-- raise Illegal() (R803). -/
def refusedIllegal (s : State) : State := { s with illegal := true, res := 0#32, cerr := .illegal }

/-- raise Misuse() (R804). -/
def refusedMisuse (s : State) : State := { s with misuse := true, res := 0#32, cerr := .misuse }

/-- The code of CTRL.LEVEL as a number (R130). -/
def levelNumber : Level → Nat
  | .low => 0
  | .medium => 1
  | .high => 2

/-- A bit as a number. -/
def bitNumber (b : Bool) : Nat := if b then 1 else 0

/-- SAMPLE or INJECT: the two commands that wait for the output port (R707). -/
def usesOutputPort : Instr → Bool
  | .sample _ _ _ _ => true
  | .inject _ _ _ => true
  | _ => false

/-- START, SAMPLE or INJECT: the three commands that can be misused (R804). -/
def canBeMisused : Instr → Bool
  | .start _ _ => true
  | .sample _ _ _ _ => true
  | .inject _ _ _ => true
  | _ => false

/-- NOP, MAG, CRC, SYN, ERRBIT, GETDF, GETICAO, QUERY, READ and RESERVED: the commands that write the
response and STATUS.ILLEGAL only. -/
def onlyAnswers : Instr → Bool
  | .nop _ _ => true
  | .mag _ _ _ _ => true
  | .crc _ _ _ => true
  | .syn _ _ _ => true
  | .errbit _ _ => true
  | .getdf _ _ _ => true
  | .geticao _ _ _ => true
  | .query _ _ _ => true
  | .read _ _ _ => true
  | .reserved _ _ _ _ => true
  | _ => false

/-! ### Frames -/

/-- The instruction is the reception of frame `f` of downlink format `d`: a row of R321, DF 25..31
counting as DF 24 under DF24_FAMILY (R501). -/
def Receives (family : Bool) (i : Instr) (d : DownlinkFormat) (f : Frame) : Prop :=
  match i with
  | .df0 low3 r => d = .df0 ∧ f = shortFrame 0 low3 r
  | .df4 low3 r => d = .df4 ∧ f = shortFrame 4 low3 r
  | .df5 low3 r => d = .df5 ∧ f = shortFrame 5 low3 r
  | .df11 low3 r => d = .df11 ∧ f = shortFrame 11 low3 r
  | .df16 low3 r => d = .df16 ∧ f = longFrame 16 low3 r
  | .df17 low3 r => d = .df17 ∧ f = longFrame 17 low3 r
  | .df18 low3 r => d = .df18 ∧ f = longFrame 18 low3 r
  | .df20 low3 r => d = .df20 ∧ f = longFrame 20 low3 r
  | .df21 low3 r => d = .df21 ∧ f = longFrame 21 low3 r
  | .df24 low3 r => d = .df24 ∧ f = longFrame 24 low3 r
  | .dfInvalid df low3 r =>
    family = true ∧ 25 ≤ df.toNat ∧ d = .df24 ∧ f = longFrame df low3 r
  | _ => False

/-- The key of the maps that a received frame is about: the address of a PI frame, the syndrome of an
AP frame (R651, R652). -/
def frameKey (cfg : Config) (f : Frame) : U24 :=
  if (downlinkFormat cfg.df24Family (f.byte 0)).frameClass = .pi then getIcao cfg f
  else syndrome24 f

/-- The frame is 7 or 14 bytes long, and all its bytes are there. -/
def wholeFrame (f : Frame) : Prop := (f.len = 7 ∨ f.len = 14) ∧ f.bytes.length = f.len

/-- A new key fits in a map of `n` entries (R124). -/
def fits (capacity : Option Nat) (n : Nat) : Prop := ∀ c, capacity = some c → n < c

/-- What `t` holds of the maps after a sweep at the time of `s`: every entry seen within the timeout,
and nothing else (R656). The model's own: an entry stored later than the time of `s`, which R656 says
does not occur, is kept (log 20), and both maps are canonical (log 19). -/
def Swept (s t : State) : Prop :=
  (∀ a : U24, KeyMap.find t.trusted a = (KeyMap.find s.trusted a).filter
      (fun seen => decide (s.now.toNat - seen.toNat ≤ s.timeoutS.toNat * s.cfg.ticksPerSecond))) ∧
  (∀ a : U24, KeyMap.find t.candidate a = (KeyMap.find s.candidate a).filter
      (fun e => decide
        (s.now.toNat - e.lastSeen.toNat ≤ s.timeoutS.toNat * s.cfg.ticksPerSecond))) ∧
  KeyMap.wf t.trusted = true ∧ KeyMap.wf t.candidate = true

/-- The instruction is the reception of frame `f`, an AP frame with the syndrome `a` that passes the
checks of R605 and R606. -/
def ApSighting (family : Bool) (i : Instr) (d : DownlinkFormat) (f : Frame) (a : U24) : Prop :=
  Receives family i d f ∧ d.frameClass = .ap ∧ f.byte 0 ≠ 0#8 ∧ f.parity ≠ 0#24 ∧ syndrome24 f = a

/-- One reception after another, each of its own frame and at its own time. -/
def sightedAt : List (Instr × U64) → State → Host.Outcome State Fault Refusal
  | [], s => .next s
  | (i, n) :: more, s =>
    match exec i { s with now := n } with
    | .next t => sightedAt more t
    | o => o

/-! ### The CRC as polynomials -/

/-- The polynomial over GF(2) whose coefficients are the bits, the first one the highest. -/
noncomputable def bitsPoly (bits : List Bool) : Polynomial (ZMod 2) :=
  bits.foldl (fun p b => p * Polynomial.X + Polynomial.C (if b then 1 else 0)) 0

/-- The bits of a byte list in air order (R200). -/
def airBits (bytes : List Byte) : List Bool :=
  bytes.flatMap fun b => (List.range 8).map fun k => b.getLsbD (7 - k)

/-- The 24 bits of a register, the highest first. -/
def regBits (c : U24) : List Bool := (List.range 24).map fun k => c.getLsbD (23 - k)

/-- The 25 bits of 0x1FFF409 (R450), the highest first. -/
def generatorBits : List Bool := (List.range 25).map fun k => Nat.testBit 0x1FFF409 (24 - k)

/-! ### The slicer -/

/-- The cells of the first `n` bytes of `buf` are ideal: (high, low) for a 1, (low, high) for a 0. -/
def idealCells (ring : Vector Mag 240) (p : Fin 240) (high low : Nat) (buf : Payload) (n : Nat) :
    Prop :=
  ∀ k : Nat, k < 8 * n →
    ringAt ring p (16 + 2 * k) = (if (bufFrame 14 buf).bit k then high else low) ∧
    ringAt ring p (17 + 2 * k) = (if (bufFrame 14 buf).bit k then low else high)

/-! ### Floating point -/

/-- `m` units are a value of the format: a significand of at most `fracBits + 1` bits, scaled. -/
def representable (F : FpFormat) (m : Nat) : Prop :=
  ∃ k e : Nat, k < 2 ^ (F.fracBits + 1) ∧ m = k * 2 ^ e

end Sys2Proof.Claims

open Sys2Proof Sys2Proof.Machine Sys2Proof.Claims

/-! ### Control and status commands -/

/-- R750. -/
def Obligations.NopAnswersZero : Prop :=
  ∀ (c : Command) (s : State), op c = 0x00#8 →
    decode (.command c) = .nop c.fields c.imm ∧
    (c.hdr = 0x00#32 ∧ c.imm = 0#32 →
      exec (.nop c.fields c.imm) s = .next { s with res := 0#32, cerr := .ok }) ∧
    (¬(c.hdr = 0x00#32 ∧ c.imm = 0#32) →
      exec (.nop c.fields c.imm) s = .next (refusedIllegal s))

/-- R751. -/
def Obligations.StartOpensTheStreamPort : Prop :=
  ∀ (c : Command) (s : State), op c = 0x01#8 →
    decode (.command c) = .start c.fields c.imm ∧
    (c.hdr = 0x01#32 ∧ c.imm = 0#32 ∧ s.run = false →
      exec (.start c.fields c.imm) s =
        .next { s with run := true, res := 0#32, cerr := .ok }) ∧
    (c.hdr = 0x01#32 ∧ c.imm = 0#32 ∧ s.run = true →
      exec (.start c.fields c.imm) s = .next (refusedMisuse s)) ∧
    (¬(c.hdr = 0x01#32 ∧ c.imm = 0#32) →
      exec (.start c.fields c.imm) s = .next (refusedIllegal s))

/-- R752. -/
def Obligations.StopClosesTheStreamPort : Prop :=
  ∀ (c : Command) (s : State), op c = 0x02#8 →
    decode (.command c) = .stop c.fields c.imm ∧
    (c.hdr = 0x02#32 ∧ c.imm = 0#32 →
      exec (.stop c.fields c.imm) s =
        .next { s with run := false, res := 0#32, cerr := .ok }) ∧
    (¬(c.hdr = 0x02#32 ∧ c.imm = 0#32) →
      exec (.stop c.fields c.imm) s = .next (refusedIllegal s))

/-- R754. -/
def Obligations.SetlvlWritesTheLevel : Prop :=
  ∀ (c : Command) (s : State), op c = 0x04#8 →
    ∃ (rsv : BitVec 30) (level : BitVec 2),
      decode (.command c) = .setlvl c.fields rsv level ∧
      (∀ l : Level, c.hdr = 0x04#32 ∧ c.imm = BitVec.ofNat 32 (levelNumber l) →
        exec (.setlvl c.fields rsv level) s =
          .next { s with level := l, res := 0#32, cerr := .ok }) ∧
      (¬(c.hdr = 0x04#32 ∧ c.imm.toNat ≤ 2) →
        exec (.setlvl c.fields rsv level) s = .next (refusedIllegal s))

/-- R755. -/
def Obligations.SettmoWritesTheTimeout : Prop :=
  ∀ (c : Command) (s : State), op c = 0x05#8 →
    ∃ (rsv : BitVec 8) (seconds : U24),
      decode (.command c) = .settmo c.fields rsv seconds ∧
      (c.hdr = 0x05#32 ∧ c.imm.toNat < 2 ^ 24 →
        exec (.settmo c.fields rsv seconds) s =
          .next { s with timeoutS := BitVec.ofNat 24 c.imm.toNat, res := 0#32, cerr := .ok }) ∧
      (¬(c.hdr = 0x05#32 ∧ c.imm.toNat < 2 ^ 24) →
        exec (.settmo c.fields rsv seconds) s = .next (refusedIllegal s))

/-- R758. -/
def Obligations.ReadReportsTheIndexedWord : Prop :=
  ∀ (c : Command) (s : State), op c = 0x0F#8 →
    ∃ (rsv : BitVec 24) (index : Byte),
      decode (.command c) = .read c.fields rsv index ∧
      (c.hdr = 0x0F#32 ∧ c.imm = 0#32 →
        exec (.read c.fields rsv index) s = .next (answered s (BitVec.ofNat 32
          (16 * levelNumber s.level + 8 * bitNumber s.ovf + 4 * bitNumber s.illegal
            + 2 * bitNumber s.misuse + bitNumber s.run)))) ∧
      (c.hdr = 0x0F#32 ∧ c.imm = 1#32 →
        exec (.read c.fields rsv index) s =
          .next (answered s (BitVec.ofNat 32 s.timeoutS.toNat))) ∧
      (c.hdr = 0x0F#32 ∧ c.imm = 2#32 ∧ s.level = .low →
        exec (.read c.fields rsv index) s = .next (answered s s.cfg.thresholdLow)) ∧
      (c.hdr = 0x0F#32 ∧ c.imm = 2#32 ∧ s.level = .medium →
        exec (.read c.fields rsv index) s = .next (answered s s.cfg.thresholdMedium)) ∧
      (c.hdr = 0x0F#32 ∧ c.imm = 2#32 ∧ s.level = .high →
        exec (.read c.fields rsv index) s = .next (answered s s.cfg.thresholdHigh)) ∧
      (c.hdr = 0x0F#32 ∧ c.imm = 3#32 →
        exec (.read c.fields rsv index) s =
          .next (answered s (BitVec.ofNat 32 (min s.trusted.length (2 ^ 32 - 1))))) ∧
      (c.hdr = 0x0F#32 ∧ c.imm = 4#32 →
        exec (.read c.fields rsv index) s =
          .next (answered s (BitVec.ofNat 32 (min s.candidate.length (2 ^ 32 - 1))))) ∧
      (c.hdr = 0x0F#32 ∧ c.imm = 5#32 →
        exec (.read c.fields rsv index) s =
          .next (answered s (BitVec.ofNat 32 s.cursor.val))) ∧
      (¬(c.hdr = 0x0F#32 ∧ c.imm.toNat ≤ 5) →
        exec (.read c.fields rsv index) s = .next (refusedIllegal s))

/-! ### Computing commands -/

/-- R402. -/
def Obligations.MagReadsTheTable : Prop :=
  ∀ (c : Command) (s : State), op c = 0x07#8 →
    ∃ (rsv : BitVec 16) (i q : Byte),
      decode (.command c) = .mag c.fields rsv i q ∧
      (c.hdr = 0x07#32 ∧ c.imm.toNat < 2 ^ 16 →
        i.toNat = c.imm.toNat / 256 ∧ q.toNat = c.imm.toNat % 256 ∧
        exec (.mag c.fields rsv i q) s =
          .next { s with res := BitVec.ofNat 32 (romMag i q).toNat, cerr := .ok }) ∧
      (¬(c.hdr = 0x07#32 ∧ c.imm.toNat < 2 ^ 16) →
        exec (.mag c.fields rsv i q) s = .next (refusedIllegal s))

/-- R400, over the reals. -/
def Obligations.MagnitudeTableIsTheFormula : Prop :=
  ∀ i q : Byte,
    ((romMag i q).toNat : ℤ) =
      max 0 (min 65535 (round (258.433254 *
        Real.sqrt ((2 * (i.toNat : ℝ) - 255) ^ 2 + (2 * (q.toNat : ℝ) - 255) ^ 2) - 365.4798)))

/-- R460. -/
def Obligations.CrcAnswersTheChecksum : Prop :=
  ∀ (c : Command) (s : State), op c = 0x08#8 →
    decode (.command c) = .crc c.fields c.imm c.payload ∧
    (reservedZero c ∧ c.imm = 0#32 ∧ (len c = 7 ∨ len c = 14) →
      exec (.crc c.fields c.imm c.payload) s =
        .next { s with
          res := (crcBytes (c.payload.toList.take (len c - 3))).setWidth 32, cerr := .ok }) ∧
    (reservedZero c ∧ c.imm = 0#32 ∧ len c ≠ 7 ∧ len c ≠ 14 →
      exec (.crc c.fields c.imm c.payload) s =
        .next { s with res := 0x0F000000#32, cerr := .ok }) ∧
    (¬(reservedZero c ∧ c.imm = 0#32) →
      exec (.crc c.fields c.imm c.payload) s = .next (refusedIllegal s))

/-- R461. -/
def Obligations.SynAnswersTheSyndrome : Prop :=
  ∀ (c : Command) (s : State), op c = 0x09#8 →
    decode (.command c) = .syn c.fields c.imm c.payload ∧
    (reservedZero c ∧ c.imm = 0#32 ∧ len c = 7 →
      exec (.syn c.fields c.imm c.payload) s =
        .next { s with
          res := (crcBytes (c.payload.toList.take 4) ^^^
            (c.payload[4] ++ c.payload[5] ++ c.payload[6] : BitVec 24)).setWidth 32
          cerr := .ok }) ∧
    (reservedZero c ∧ c.imm = 0#32 ∧ len c = 14 →
      exec (.syn c.fields c.imm c.payload) s =
        .next { s with
          res := (crcBytes (c.payload.toList.take 11) ^^^
            (c.payload[11] ++ c.payload[12] ++ c.payload[13] : BitVec 24)).setWidth 32
          cerr := .ok }) ∧
    (reservedZero c ∧ c.imm = 0#32 ∧ len c ≠ 7 ∧ len c ≠ 14 →
      exec (.syn c.fields c.imm c.payload) s =
        .next { s with res := 0x0F000000#32, cerr := .ok }) ∧
    (¬(reservedZero c ∧ c.imm = 0#32) →
      exec (.syn c.fields c.imm c.payload) s = .next (refusedIllegal s))

/-- R462 with R453: the answer is the one position whose table entry is the syndrome, or -1. -/
def Obligations.ErrbitAnswersTheMatchingPosition : Prop :=
  ∀ (c : Command) (s : State), op c = 0x0A#8 →
    decode (.command c) = .errbit c.fields c.imm ∧
    (∀ e : Nat, reservedZero c ∧ (len c = 7 ∨ len c = 14) ∧ c.imm ≠ 0#32 ∧
        5 ≤ e ∧ e < 8 * len c ∧ c.imm.toNat = (romSyn (len c) e).toNat →
      exec (.errbit c.fields c.imm) s =
        .next { s with res := BitVec.ofNat 32 e, cerr := .ok }) ∧
    (reservedZero c ∧
        (len c ≠ 7 ∧ len c ≠ 14 ∨ c.imm = 0#32 ∨
          ∀ e : Nat, 5 ≤ e → e < 8 * len c → c.imm.toNat ≠ (romSyn (len c) e).toNat) →
      exec (.errbit c.fields c.imm) s =
        .next { s with res := 0xFFFFFFFF#32, cerr := .ok }) ∧
    (¬reservedZero c → exec (.errbit c.fields c.imm) s = .next (refusedIllegal s))

/-- R502 with R500. -/
def Obligations.GetdfNamesTheFormat : Prop :=
  ∀ (c : Command) (s : State), op c = 0x0B#8 →
    decode (.command c) = .getdf c.fields c.imm c.payload ∧
    (c.hdr = 0x0B#32 ∧ c.imm = 0#32 ∧
        c.payload[0].toNat / 8 ∈ [0, 4, 5, 11, 16, 17, 18, 20, 21, 24] →
      exec (.getdf c.fields c.imm c.payload) s =
        .next { s with res := BitVec.ofNat 32 (c.payload[0].toNat / 8), cerr := .ok }) ∧
    (c.hdr = 0x0B#32 ∧ c.imm = 0#32 ∧
        c.payload[0].toNat / 8 ∉ [0, 4, 5, 11, 16, 17, 18, 20, 21, 24] ∧
        s.cfg.df24Family = true ∧ 25 ≤ c.payload[0].toNat / 8 →
      exec (.getdf c.fields c.imm c.payload) s =
        .next { s with res := 24#32, cerr := .ok }) ∧
    (c.hdr = 0x0B#32 ∧ c.imm = 0#32 ∧
        c.payload[0].toNat / 8 ∉ [0, 4, 5, 11, 16, 17, 18, 20, 21, 24] ∧
        ¬(s.cfg.df24Family = true ∧ 25 ≤ c.payload[0].toNat / 8) →
      exec (.getdf c.fields c.imm c.payload) s =
        .next { s with res := 0xFFFFFFFF#32, cerr := .ok }) ∧
    (¬(c.hdr = 0x0B#32 ∧ c.imm = 0#32) →
      exec (.getdf c.fields c.imm c.payload) s = .next (refusedIllegal s))

/-- R503. -/
def Obligations.GeticaoAnswersTheAddress : Prop :=
  ∀ (c : Command) (s : State), op c = 0x0C#8 →
    decode (.command c) = .geticao c.fields c.imm c.payload ∧
    (reservedZero c ∧ c.imm = 0#32 →
      exec (.geticao c.fields c.imm c.payload) s =
        .next { s with
          res := (getIcao s.cfg ⟨len c, c.payload.toList.take (len c)⟩).setWidth 32
          cerr := .ok }) ∧
    (¬(reservedZero c ∧ c.imm = 0#32) →
      exec (.geticao c.fields c.imm c.payload) s = .next (refusedIllegal s))

/-- R505, clause by clause. -/
def Obligations.AddressOfEachFrameClass : Prop :=
  ∀ (cfg : Config) (f : Frame) (d : DownlinkFormat) (s : U24),
    d = downlinkFormat cfg.df24Family (f.byte 0) →
    s = (if d = .df11 then syndrome24 f &&& 0xFFFF80#24 else syndrome24 f) →
    (f.len ≠ 7 → f.len ≠ 14 → getIcao cfg f = 0#24) ∧
    (d = .invalid → getIcao cfg f = 0#24) ∧
    (f.len = 7 ∨ f.len = 14 →
      (d ∈ [.df0, .df4, .df5, .df16, .df20, .df21, .df24] → getIcao cfg f = syndrome24 f) ∧
      (d = .df18 → f.byte 0 &&& 7#8 ≠ 0#8 → getIcao cfg f = 0#24) ∧
      (d = .df11 ∨ d = .df17 ∨ (d = .df18 ∧ f.byte 0 &&& 7#8 = 0#8) →
        (s = 0#24 → getIcao cfg f = (f.byte 1 ++ f.byte 2 ++ f.byte 3 : BitVec 24)) ∧
        (∀ e : Nat, s ≠ 0#24 → ¬(cfg.df11MaskedMatch = true ∧ d = .df11) →
          errorBit f.len (s.setWidth 32) = some e → getIcao cfg f = (f.flip e).be3 1) ∧
        (s ≠ 0#24 → ¬(cfg.df11MaskedMatch = true ∧ d = .df11) →
          errorBit f.len (s.setWidth 32) = none → getIcao cfg f = 0#24) ∧
        (∀ e : Nat, s ≠ 0#24 → cfg.df11MaskedMatch = true → d = .df11 →
          5 ≤ e → e < 8 * f.len → romSyn f.len e &&& 0xFFFF80#24 = s →
          (∀ e' : Nat, 5 ≤ e' → e' < 8 * f.len → romSyn f.len e' &&& 0xFFFF80#24 = s → e' = e) →
          getIcao cfg f = (f.flip e).be3 1) ∧
        (s ≠ 0#24 → cfg.df11MaskedMatch = true → d = .df11 →
          ¬(∃ e : Nat, 5 ≤ e ∧ e < 8 * f.len ∧ romSyn f.len e &&& 0xFFFF80#24 = s ∧
            ∀ e' : Nat, 5 ≤ e' → e' < 8 * f.len →
              romSyn f.len e' &&& 0xFFFF80#24 = s → e' = e) →
          getIcao cfg f = 0#24)))

/-! ### Laws of the CRC engine -/

/-- R451's remainder: the data bits times x^24, less the checksum, are a multiple of 0x1FFF409. -/
def Obligations.ChecksumIsTheRemainder : Prop :=
  ∀ f : Frame, wholeFrame f →
    checksum f = (checksum24 f).setWidth 32 ∧
    ∃ quotient : Polynomial (ZMod 2),
      bitsPoly (airBits (f.bytes.take (f.len - 3))) * Polynomial.X ^ 24 =
        quotient * bitsPoly generatorBits + bitsPoly (regBits (checksum24 f))

/-- R455 item 7 and R456. -/
def Obligations.GeneratedParityCarriesTheValue : Prop :=
  ∀ (f g : Frame) (a : U24), wholeFrame f → wholeFrame g → g.len = f.len →
    g.bytes.take (f.len - 3) = f.bytes.take (f.len - 3) →
    g.parity = checksum24 f ^^^ a →
    syndrome24 g = a ∧ syndrome g = a.setWidth 32

/-- R455 items 1, 5 and 6 with R453: every single-bit error beyond the downlink format is located, and no
double-bit error is. -/
def Obligations.ErrorBitLocatesSingleErrorsOnly : Prop :=
  (∀ (f : Frame) (k : Nat), wholeFrame f → syndrome24 f = 0#24 → 5 ≤ k → k < 8 * f.len →
    syndrome24 (f.flip k) = romSyn f.len k ∧ errorBit f.len (syndrome (f.flip k)) = some k) ∧
  (∀ (f : Frame) (j k : Nat), wholeFrame f → syndrome24 f = 0#24 → j < k → k < 8 * f.len →
    errorBit f.len (syndrome ((f.flip j).flip k)) = none)

/-- R505, R506: a DF17 frame with one wrong bit beyond the downlink format still gives its address, with
two it gives none; a DF11 frame gives its address whatever its interrogator identifier. -/
def Obligations.WrongBitsGiveNoWrongAddress : Prop :=
  (∀ (cfg : Config) (f : Frame) (k : Nat), f.len = 14 → f.bytes.length = 14 →
    (f.byte 0).toNat / 8 = 17 → syndrome24 f = 0#24 → 5 ≤ k → k < 112 →
    getIcao cfg (f.flip k) = f.be3 1) ∧
  (∀ (cfg : Config) (f : Frame) (j k : Nat), f.len = 14 → f.bytes.length = 14 →
    (f.byte 0).toNat / 8 = 17 → syndrome24 f = 0#24 → 5 ≤ j → j < k → k < 112 →
    getIcao cfg ((f.flip j).flip k) = 0#24) ∧
  (∀ (cfg : Config) (f : Frame), f.len = 7 → f.bytes.length = 7 →
    (f.byte 0).toNat / 8 = 11 → (syndrome24 f).toNat < 128 → getIcao cfg f = f.be3 1)

/-! ### Trust commands and the trust filter -/

/-- R658 with R656. The model's own: the maps are canonical before and after (log 19), and an entry
stored later than now is kept (log 20). -/
def Obligations.SweepRemovesTheStaleEntries : Prop :=
  ∀ (c : Command) (s : State), op c = 0x06#8 →
    decode (.command c) = .sweep c.fields c.imm ∧
    (c.hdr = 0x06#32 ∧ c.imm = 0#32 ∧ KeyMap.wf s.trusted = true ∧
        KeyMap.wf s.candidate = true →
      ∃ t : State,
        exec (.sweep c.fields c.imm) s =
          .next { s with
            trusted := t.trusted, candidate := t.candidate
            res := BitVec.ofNat 32 (s.trusted.length + s.candidate.length
              - (t.trusted.length + t.candidate.length))
            cerr := .ok } ∧
        Swept s t) ∧
    (¬(c.hdr = 0x06#32 ∧ c.imm = 0#32) →
      exec (.sweep c.fields c.imm) s = .next (refusedIllegal s))

/-- R661. -/
def Obligations.QueryReportsTheTrustState : Prop :=
  ∀ (c : Command) (s : State), op c = 0x0E#8 →
    ∃ (rsv : BitVec 8) (icao : U24),
      decode (.command c) = .query c.fields rsv icao ∧
      (c.hdr = 0x0E#32 ∧ c.imm.toNat < 2 ^ 24 →
        icao.toNat = c.imm.toNat ∧
        (∀ e, KeyMap.find s.candidate icao = some e →
          exec (.query c.fields rsv icao) s = .next (answered s (BitVec.ofNat 32
            (256 * min e.validFrames.toNat 0xFFFFFF + 2
              + bitNumber (KeyMap.find s.trusted icao).isSome)))) ∧
        (KeyMap.find s.candidate icao = none →
          exec (.query c.fields rsv icao) s = .next (answered s (BitVec.ofNat 32
            (bitNumber (KeyMap.find s.trusted icao).isSome))))) ∧
      (¬(c.hdr = 0x0E#32 ∧ c.imm.toNat < 2 ^ 24) →
        exec (.query c.fields rsv icao) s = .next (refusedIllegal s))

/-- R660, in a state whose output port is free. -/
def Obligations.InjectJudgesTheGivenFrame : Prop :=
  ∀ (c : Command) (s : State) (f : Frame) (d : DownlinkFormat),
    op c = 0x0D#8 → s.held = none → f = ⟨len c, c.payload.toList.take (len c)⟩ →
    d = downlinkFormat s.cfg.df24Family c.payload[0] →
    decode (.command c) = .inject c.fields c.imm c.payload ∧
    (¬(reservedZero c ∧ c.imm = 0#32) →
      exec (.inject c.fields c.imm c.payload) s = .next (refusedIllegal s)) ∧
    (reservedZero c ∧ c.imm = 0#32 →
      (s.run = true → exec (.inject c.fields c.imm c.payload) s = .next (refusedMisuse s)) ∧
      (s.run = false → c.payload[0] = 0#8 →
        exec (.inject c.fields c.imm c.payload) s = .next { s with res := 5#32, cerr := .ok }) ∧
      (s.run = false → c.payload[0] ≠ 0#8 → d = .invalid →
        exec (.inject c.fields c.imm c.payload) s = .next { s with res := 6#32, cerr := .ok }) ∧
      (s.run = false → c.payload[0] ≠ 0#8 → d ≠ .invalid → len c ≠ d.lenBytes →
        exec (.inject c.fields c.imm c.payload) s = .next { s with res := 10#32, cerr := .ok }) ∧
      (s.run = false → c.payload[0] ≠ 0#8 → d ≠ .invalid → len c = d.lenBytes →
        f.parity = 0#24 →
        exec (.inject c.fields c.imm c.payload) s = .next { s with res := 7#32, cerr := .ok }) ∧
      (s.run = false → c.payload[0] ≠ 0#8 → d ≠ .invalid → len c = d.lenBytes →
        f.parity ≠ 0#24 →
        exec (.inject c.fields c.imm c.payload) s =
          .next { (validate s f).2 with res := (validate s f).1.code, cerr := .ok }))

/-- R651 with R654, and the insertion into Trusted of R655. -/
def Obligations.PiFrameMovesItsAddressToTrusted : Prop :=
  ∀ (s : State) (f : Frame) (d : DownlinkFormat) (a : U24) (r : OutRecord),
    d = downlinkFormat s.cfg.df24Family (f.byte 0) → d ∈ [.df11, .df17, .df18] →
    a = getIcao s.cfg f →
    r = ⟨if s.cfg.emitCorrectedPayload = true then ((piRepair s.cfg d f).getD f).bytes else f.bytes,
      f.len, d.value, a⟩ →
    (d = .df18 → f.byte 0 &&& 7#8 ≠ 0#8 → validate s f = (.piNoAa, s)) ∧
    (¬(d = .df18 ∧ f.byte 0 &&& 7#8 ≠ 0#8) → a = 0#24 →
      validate s f = (.piUncorrectable, s)) ∧
    (¬(d = .df18 ∧ f.byte 0 &&& 7#8 ≠ 0#8) → a ≠ 0#24 →
      (KeyMap.find s.trusted a).isSome = true ∨ fits s.cfg.trustedCapacity s.trusted.length →
      validate s f = (.emitPi,
        { s with
          trusted := KeyMap.put s.trusted a s.now, candidate := KeyMap.remove s.candidate a
          out := s.out ++ [r], held := some r })) ∧
    (¬(d = .df18 ∧ f.byte 0 &&& 7#8 ≠ 0#8) → a ≠ 0#24 →
      KeyMap.find s.trusted a = none → ¬fits s.cfg.trustedCapacity s.trusted.length →
      validate s f = (.emitPi,
        { s with
          ovf := true, candidate := KeyMap.remove s.candidate a
          out := s.out ++ [r], held := some r }))

/-- R652 with R653, R654 and R655. -/
def Obligations.ApFrameIsTrustedAtTheThreshold : Prop :=
  ∀ (s : State) (f : Frame) (d : DownlinkFormat) (a : U24) (r : OutRecord) (n : Nat),
    d = downlinkFormat s.cfg.df24Family (f.byte 0) →
    d ∈ [.df0, .df4, .df5, .df16, .df20, .df21, .df24] → a = syndrome24 f →
    r = ⟨f.bytes, f.len, d.value, a⟩ →
    n = ((KeyMap.find s.candidate a).map (fun e => e.validFrames.toNat)).getD 0 →
    ((KeyMap.find s.trusted a).isSome = true →
      validate s f = (.emitApTrusted,
        { s with
          trusted := KeyMap.put s.trusted a s.now, out := s.out ++ [r], held := some r })) ∧
    (KeyMap.find s.trusted a = none → (threshold s.cfg s.level).toNat ≤ n + 1 →
      fits s.cfg.trustedCapacity s.trusted.length →
      validate s f = (.emitApPromoted,
        { s with
          trusted := KeyMap.put s.trusted a s.now, candidate := KeyMap.remove s.candidate a
          out := s.out ++ [r], held := some r })) ∧
    (KeyMap.find s.trusted a = none → (threshold s.cfg s.level).toNat ≤ n + 1 →
      ¬fits s.cfg.trustedCapacity s.trusted.length →
      validate s f = (.emitApPromoted,
        { s with
          ovf := true, candidate := KeyMap.remove s.candidate a
          out := s.out ++ [r], held := some r })) ∧
    (KeyMap.find s.trusted a = none → n + 1 < (threshold s.cfg s.level).toNat →
      (KeyMap.find s.candidate a).isSome = true →
      validate s f = (.apCandidate,
        { s with candidate := KeyMap.put s.candidate a ⟨s.now, BitVec.ofNat 32 (n + 1)⟩ })) ∧
    (KeyMap.find s.trusted a = none → n + 1 < (threshold s.cfg s.level).toNat →
      KeyMap.find s.candidate a = none → fits s.cfg.candidateCapacity s.candidate.length →
      validate s f = (.apCandidate,
        { s with candidate := KeyMap.put s.candidate a ⟨s.now, 1#32⟩ })) ∧
    (KeyMap.find s.trusted a = none → n + 1 < (threshold s.cfg s.level).toNat →
      KeyMap.find s.candidate a = none → ¬fits s.cfg.candidateCapacity s.candidate.length →
      validate s f = (.candFull, { s with ovf := true }))

/-- R659 item 3 over any AP frames with one syndrome and any times of sighting: fewer than T sightings
emit nothing, the T-th emits once and moves the key. The model's own: a sighting is exec of a frame row
(logs 8 and 9), and the maps are canonical (log 19). -/
def Obligations.PromotionTakesExactlyTheThreshold : Prop :=
  ∀ (s : State) (a : U24) (sightings : List (Instr × U64)),
    s.mapsOk → s.held = none → s.cfg.trustedCapacity = none → s.cfg.candidateCapacity = none →
    (∀ x ∈ sightings, ∃ d f, ApSighting s.cfg.df24Family x.1 d f a) →
    KeyMap.find s.trusted a = none → KeyMap.find s.candidate a = none →
    sightings.length < (threshold s.cfg s.level).toNat →
    ∃ t : State, sightedAt sightings s = .next t ∧ t.out = s.out ∧ t.held = none ∧
      KeyMap.find t.trusted a = none ∧
      ((KeyMap.find t.candidate a).map (fun e => e.validFrames.toNat)).getD 0 =
        sightings.length ∧
      (sightings.length + 1 = (threshold s.cfg s.level).toNat →
        ∀ (i : Instr) (d : DownlinkFormat) (f : Frame) (n : U64),
          ApSighting s.cfg.df24Family i d f a →
          ∃ u : State, exec i { t with now := n } = .next u ∧
            u.out = s.out ++ [⟨f.bytes, f.len, d.value, a⟩] ∧
            KeyMap.find u.trusted a = some n ∧ KeyMap.find u.candidate a = none)

/-! ### Received frames -/

/-- The model's reading of the DF rows (log 8, and log 9 for DF 25 to 31): a received frame that passes
the checks of R605 and R606 goes to the trust filter, any other is dropped; so is a frame of an invalid
downlink format (the DF_INVALID row). -/
def Obligations.ReceivedFrameReachesTheTrustFilter : Prop :=
  (∀ (s : State) (i : Instr) (d : DownlinkFormat) (f : Frame),
    s.held = none → Receives s.cfg.df24Family i d f →
    downlinkFormat s.cfg.df24Family (f.byte 0) = d ∧ wholeFrame f ∧ f.len = d.lenBytes ∧
    (f.byte 0 = 0#8 ∨ f.parity = 0#24 → exec i s = .next s) ∧
    (f.byte 0 ≠ 0#8 → f.parity ≠ 0#24 → exec i s = .next (validate s f).2)) ∧
  (∀ (s : State) (df : BitVec 5) (low3 : BitVec 3) (rest : Vector Byte 13),
    df.toNat ∉ [0, 4, 5, 11, 16, 17, 18, 20, 21, 24] →
    s.cfg.df24Family = false ∨ df.toNat < 25 →
    exec (.dfInvalid df low3 rest) s = .next s)

/-! ### The sample path -/

/-- R701. -/
def Obligations.SampleStepChainsTheUnits : Prop :=
  ∀ (s w : State) (i q : Byte),
    w = { s with ring := s.ring.set s.cursor.val (romMag i q), cursor := s.cursor + 1 } →
    (preamble w.ring w.cursor = false → sampleStep s i q = (.noPreamble, w)) ∧
    (∀ (reason : FrameOutcome) (regs : SliceRegs), preamble w.ring w.cursor = true →
      slice s.cfg w.ring w.cursor s.prevAvg = (.abort reason, regs) →
      reason ∈ [.byte0Zero, .dfInvalid, .tailZero] ∧
      sampleStep s i q = (reason, { w with fbuf := regs.fbuf, prevAvg := regs.prevAvg })) ∧
    (∀ (f : Frame) (regs : SliceRegs), preamble w.ring w.cursor = true →
      slice s.cfg w.ring w.cursor s.prevAvg = (.frame f, regs) →
      sampleStep s i q = validate { w with fbuf := regs.fbuf, prevAvg := regs.prevAvg } f)

/-- R702, in a state whose output port is free. -/
def Obligations.SampleRunsOneSampleStep : Prop :=
  ∀ (c : Command) (s : State), op c = 0x03#8 → s.held = none →
    ∃ (rsv : BitVec 16) (i q : Byte),
      decode (.command c) = .sample c.fields rsv i q ∧
      (c.hdr = 0x03#32 ∧ c.imm.toNat < 2 ^ 16 → s.run = false →
        i.toNat = c.imm.toNat / 256 ∧ q.toNat = c.imm.toNat % 256 ∧
        exec (.sample c.fields rsv i q) s =
          .next { (sampleStep s i q).2 with res := (sampleStep s i q).1.code, cerr := .ok }) ∧
      (c.hdr = 0x03#32 ∧ c.imm.toNat < 2 ^ 16 → s.run = true →
        exec (.sample c.fields rsv i q) s = .next (refusedMisuse s)) ∧
      (¬(c.hdr = 0x03#32 ∧ c.imm.toNat < 2 ^ 16) →
        exec (.sample c.fields rsv i q) s = .next (refusedIllegal s))

/-- R700: the port is ready exactly while the worker runs and no record waits. That exec answers the
same state where it is not ready is the model's form (log 26). -/
def Obligations.StreamTransferIsOneSampleStep : Prop :=
  ∀ (w : BitVec 16) (s : State),
    ∃ i q : Byte, decode (.stream w) = .streamSample i q ∧
      i.toNat = w.toNat / 256 ∧ q.toNat = w.toNat % 256 ∧
      (s.run = true → s.held = none →
        exec (.streamSample i q) s = .next (sampleStep s i q).2 ∧
        (sampleStep s i q).2.res = s.res ∧ (sampleStep s i q).2.cerr = s.cerr) ∧
      (s.run = false ∨ s.held ≠ none → exec (.streamSample i q) s = .next s)

/-- A stream sample whose window slices to a frame does what the row of the instruction decoded from the
frame buffer does. The model's own: the frame rows are instructions of that meaning (log 8), and for DF 25
to 31 under DF24_FAMILY that instruction is of the DF_INVALID row (log 9). -/
def Obligations.StreamSampleRunsTheFrameRow : Prop :=
  ∀ (s w t : State) (i q : Byte) (f : Frame) (regs : SliceRegs),
    s.run = true → s.held = none →
    w = { s with ring := s.ring.set s.cursor.val (romMag i q), cursor := s.cursor + 1 } →
    preamble w.ring w.cursor = true →
    slice s.cfg w.ring w.cursor s.prevAvg = (.frame f, regs) →
    t = { w with fbuf := regs.fbuf, prevAvg := regs.prevAvg } →
    exec (.streamSample i q) s = exec (decode (.frame regs.fbuf)) t

/-- R206: what a sample step leaves as it was. -/
def Obligations.SampleStepFrame : Prop :=
  ∀ (s t : State) (i q : Byte) (x : FrameOutcome), sampleStep s i q = (x, t) →
    t = { s with
      ring := t.ring, cursor := t.cursor, fbuf := t.fbuf, prevAvg := t.prevAvg
      trusted := t.trusted, candidate := t.candidate, ovf := t.ovf, out := t.out
      held := t.held } ∧
    t.cursor.val = (s.cursor.val + 1) % 240 ∧
    (∀ j : Fin 240, j ≠ s.cursor → t.ring[j] = s.ring[j]) ∧
    t.ring[s.cursor] = romMag i q ∧
    (preamble t.ring t.cursor = false →
      t.fbuf = s.fbuf ∧ t.prevAvg = s.prevAvg ∧ t.trusted = s.trusted ∧
      t.candidate = s.candidate ∧ t.ovf = s.ovf ∧ t.out = s.out ∧ t.held = s.held) ∧
    (∀ b : U24,
      (∀ f, (slice s.cfg t.ring t.cursor s.prevAvg).1 = .frame f → b ≠ frameKey s.cfg f) →
      KeyMap.find t.trusted b = KeyMap.find s.trusted b ∧
      KeyMap.find t.candidate b = KeyMap.find s.candidate b)

/-- R552 to R556. -/
def Obligations.PreambleIsTheThreeTests : Prop :=
  ∀ (ring : Vector Mag 240) (p : Fin 240) (b : Nat → Nat) (h : Nat),
    (∀ k : Nat, b k = (ring[(p.val + k) % 240]'(Nat.mod_lt _ (by decide))).toNat) →
    h = (b 0 + b 2 + b 7 + b 9) / 6 →
    (preamble ring p = true ↔
      (b 0 > b 1 ∧ b 1 < b 2 ∧ b 2 > b 3 ∧ b 3 < b 0 ∧ b 4 < b 0 ∧ b 5 < b 0 ∧ b 6 < b 0 ∧
        b 7 > b 8 ∧ b 8 < b 9 ∧ b 9 > b 6) ∧
      (b 4 < h ∧ b 5 < h) ∧ (b 11 < h ∧ b 12 < h ∧ b 13 < h ∧ b 14 < h))

/-- R911: a window whose oldest entry is a reset zero never passes, so the sample is only stored. -/
def Obligations.WarmUpNeverHits : Prop :=
  ∀ (s t : State) (i q : Byte) (x : FrameOutcome),
    (∀ j : Nat, s.cursor.val ≤ j → ∀ h : j < 240, s.ring[j] = 0#16) → s.cursor.val < 239 →
    sampleStep s i q = (x, t) →
    x = .noPreamble ∧ t.cursor.val = s.cursor.val + 1 ∧ t.fbuf = s.fbuf ∧ t.out = s.out ∧
      ∀ j : Nat, t.cursor.val ≤ j → ∀ h : j < 240, t.ring[j] = 0#16

/-! ### The slicer -/

/-- A window of ideal PPM cells slices to the very bytes it carries (R600 to R603, R604 item 3), or aborts
for the first reason that R605 and R606 give, in their order: after bit 7 on a zero first byte, then on an
invalid format, and at the end on a zero tail. prev_avg is cleared at the start of the attempt. R602 and
R604 speak of binary64; that the statement holds in binary32 too is about a format that is the model's
(log 16). -/
def Obligations.IdealCellsSliceToTheirBytes : Prop :=
  ∀ (cfg : Config) (ring : Vector Mag 240) (p : Fin 240) (prev : U64) (buf : Payload)
    (high low : Nat) (d : DownlinkFormat),
    cfg.prevAvgScope = .frame → low < high → d = downlinkFormat cfg.df24Family buf[0] →
    (idealCells ring p high low buf 1 → buf[0] = 0#8 →
      (slice cfg ring p prev).1 = .abort .byte0Zero) ∧
    (idealCells ring p high low buf 1 → buf[0] ≠ 0#8 → d = .invalid →
      (slice cfg ring p prev).1 = .abort .dfInvalid) ∧
    (idealCells ring p high low buf d.lenBytes → buf[0] ≠ 0#8 → d ≠ .invalid →
      (bufFrame d.lenBytes buf).parity = 0#24 →
      (slice cfg ring p prev).1 = .abort .tailZero) ∧
    (idealCells ring p high low buf d.lenBytes → buf[0] ≠ 0#8 → d ≠ .invalid →
      (bufFrame d.lenBytes buf).parity ≠ 0#24 →
      (slice cfg ring p prev).1 = .frame (bufFrame d.lenBytes buf))

/-- R602 with R604, for every cell of two magnitudes and every previous average but NaN and minus
infinity. In order: no NaN (item 7); equal half-chips give 0 (item 8); a previous average that is not
above 0, or not above the cell's, leaves the cell as it is (items 1 to 4); a lower average raises s1 by
((-20.0) *. (avg -. prev_avg)) /. avg, which is above 0 for every previous average that is a value of the
format (item 5); a zero cell after a positive average, and every cell after an infinite one, gives
infinities and the bit 0 (item 6). R602 is under binary64; the binary32 half (log 16) and the formats as
spelled out here, in units of 2^-scale (log 17), are the model's. -/
def Obligations.CorrectionNeverGivesNaN : Prop :=
  ∀ (fp : SlicerFp) (F : FpFormat) (m0 m1 : Nat) (prev s0 s1 avg corr : FpVal) (r : AgcResult),
    m0 ≤ 65535 → m1 ≤ 65535 → prev ≠ .nan → prev ≠ .inf true → F = fpFormat fp →
    s0 = .fin false (m0 * 2 ^ F.scale) → s1 = .fin false (m1 * 2 ^ F.scale) →
    avg = .fin false ((m0 + m1) * 2 ^ (F.scale - 1)) →
    corr = fpDiv F (fpMul F (.fin true (20 * 2 ^ F.scale)) (fpSub F avg prev)) avg →
    r = agcBit F (fpOfNat F m0) (fpOfNat F m1) prev →
    r.s1c ≠ .nan ∧ r.avg ≠ .nan ∧ r.avg ≠ .inf true ∧
    (m0 = m1 → r.bit = false) ∧
    (fpGt prev (.fin false 0) = false ∨ fpGt prev avg = false →
      r = ⟨s1, avg, decide (m1 < m0)⟩) ∧
    (0 < m0 + m1 → fpGt prev avg = true →
      r = ⟨fpAdd F s1 corr,
        fpMul F (fpAdd F (fpAdd F s1 corr) s0) (.fin false (2 ^ (F.scale - 1))),
        fpGt s0 (fpAdd F s1 corr)⟩ ∧
      (prev = .inf false ∨ (∃ m : Nat, representable F m ∧ prev = .fin false m) →
        fpGt corr (.fin false 0) = true)) ∧
    (m0 = 0 → m1 = 0 → fpGt prev (.fin false 0) = true → r = ⟨.inf false, .inf false, false⟩) ∧
    (prev = .inf false → r = ⟨.inf false, .inf false, false⟩)

/-- R13 for binary64: a finite result is a value of the format nearest to the exact one (which of two
equally near ones is not stated here). The binary32 half and the formats as spelled out here are the
model's (logs 16 and 17). -/
def Obligations.RoundingIsToNearest : Prop :=
  ∀ (fp : SlicerFp) (neg neg' : Bool) (a d m : Nat), 0 < d →
    fpRound (fpFormat fp) neg a d = .fin neg' m →
    neg' = neg ∧ m < (fpFormat fp).limit ∧ representable (fpFormat fp) m ∧
    ∀ m' : Nat, representable (fpFormat fp) m' →
      |(a : ℚ) / d - m| ≤ |(a : ℚ) / d - m'|

/-! ### Encoding -/

/-- No bit of an encoding is dropped: every well-formed instruction is read back as it was written. -/
def Obligations.DecodeOfEncodeIsTheInstruction : Prop :=
  ∀ i : Instr, i.wf = true → decode (encode i) = i

/-- R301, R302, R305, R330: what is read determines what was sent, but for payload bytes that the command
does not read and frame-buffer bytes beyond a short frame. What is read is well-formed. -/
def Obligations.EncodeOfDecodeIsTheTransfer : Prop :=
  (∀ c : Command, ∃ p : Payload, encode (decode (.command c)) = .command ⟨c.hdr, c.imm, p⟩ ∧
    ((op c).toNat ∈ [0x08, 0x09, 0x0B, 0x0C, 0x0D] → p = c.payload)) ∧
  (∀ w : BitVec 16, encode (decode (.stream w)) = .stream w) ∧
  (∀ buf : Payload, ∃ buf' : Payload, encode (decode (.frame buf)) = .frame buf' ∧
    (∀ j : Fin 7, buf'[j] = buf[j]) ∧
    (buf[0].toNat / 8 ∉ [0, 4, 5, 11] → buf' = buf)) ∧
  (∀ x : Transfer, (decode x).wf = true)

/-- decodeTableWord reads words whose fields are written out from R304, R305, R321 and R330. The model's
own, in every clause: the width of a table word tells its port, and what the word does not hold is 0, the
13 and 6 further bytes of the frames 0x8D and 0x5D among it (log 32, DESIGN CHOICE). The model's own too:
hdr stands in the high half of a 64-bit word (log 22), and a byte that could be a frame's first byte or a
reserved operation code, as 0x8D and 0x5D could, is read as the frame's (log 10). -/
def Obligations.TableWordsDecodeRight : Prop :=
  decodeTableWord 64 0x0000000000000000 = some (.nop ⟨0, 0⟩ 0) ∧
  decodeTableWord 64 0x0000000700000102 = some (.mag ⟨0, 0⟩ 0 1 2) ∧
  decodeTableWord 64 0x0000070A00800000 = some (.errbit ⟨0, 7⟩ 0x00800000) ∧
  decodeTableWord 64 0x0000000E12345678 = some (.query ⟨0, 0⟩ 0x12 0x345678) ∧
  decodeTableWord 64 0x0000000400000002 = some (.setlvl ⟨0, 0⟩ 0 2) ∧
  decodeTableWord 16 0xC080 = some (.streamSample 0xC0 0x80) ∧
  decodeTableWord 8 0x8D = some (.df17 5 (Vector.replicate 13 0#8)) ∧
  decodeTableWord 8 0x5D = some (.df11 5 (Vector.replicate 6 0#8))

/-- R303 with R803: a command that is not legal is refused with no other effect, whatever the state. A
SAMPLE or INJECT is taken only while no record is held (R707; that an illegal one waits too is log 7, and
not stated here). -/
def Obligations.IllegalCommandIsRefused : Prop :=
  ∀ (c : Command) (s : State), (decode (.command c)).legal = false →
    s.held = none ∨ usesOutputPort (decode (.command c)) = false →
    exec (decode (.command c)) s =
      .next { s with illegal := true, res := 0#32, cerr := .illegal }

/-- R304, R306: every operation code from 0x10 up is reserved and refused, whatever the other bits. -/
def Obligations.ReservedCodesAreRefused : Prop :=
  ∀ (c : Command) (s : State), 0x10 ≤ (op c).toNat →
    ∃ hi lo : BitVec 4, decode (.command c) = .reserved hi lo c.fields c.imm ∧
      16 * hi.toNat + lo.toNat = (op c).toNat ∧
      exec (.reserved hi lo c.fields c.imm) s =
        .next { s with illegal := true, res := 0#32, cerr := .illegal }

/-- R131, R753, R802: what CERR says of a command that is taken. -/
def Obligations.CerrTellsHowTheCommandEnded : Prop :=
  ∀ (i : Instr) (s : State), i.isCommand = true → s.held = none ∨ usesOutputPort i = false →
    ∃ t : State, exec i s = .next t ∧
      (i.legal = false → t.cerr = .illegal) ∧
      (i.legal = true → s.run = true → canBeMisused i = true → t.cerr = .misuse) ∧
      (i.legal = true → s.run = false ∨ canBeMisused i = false → t.cerr = .ok) ∧
      (t.cerr ≠ .ok → t.res = 0#32) ∧
      t.illegal = (s.illegal || t.cerr == .illegal) ∧
      t.misuse = (s.misuse || t.cerr == .misuse)

/-! ### Steps -/

/-- R753, R700, R840: the step of a turn runs the instruction of the transfer it takes, at the time
input of the turn, with the transfer and the turn used up. The model's own: the queues and the turns (log
3), and the latest time input kept in the state (log 2). -/
def Obligations.StepRunsTheDecodedInstruction : Prop :=
  (∀ (s : State) (now : U64) (rest : List Turn) (c : Command) (more : List Command),
    s.cfg.wf = true → s.sched = ⟨.host, now⟩ :: rest → s.hostQ = c :: more →
    s.now.toNat ≤ now.toNat →
    s.held = none ∨ usesOutputPort (decode (.command c)) = false →
    step s = exec (decode (.command c)) { s with sched := rest, hostQ := more, now := now }) ∧
  (∀ (s : State) (now : U64) (rest : List Turn) (w : BitVec 16) (more : List (BitVec 16)),
    s.cfg.wf = true → s.sched = ⟨.sampleEngine, now⟩ :: rest → s.producer = w :: more →
    s.now.toNat ≤ now.toNat → s.run = true → s.held = none →
    step s = exec (decode (.stream w)) { s with sched := rest, producer := more, now := now })

/-- R703, R840: a turn of an agent with no enabled step changes nothing of the block (the turn itself
is the model's, log 3). -/
def Obligations.DisabledTurnChangesNothing : Prop :=
  ∀ s : State, s.cfg.wf = true →
    (s.sched = [] → step s = .next s) ∧
    (∀ (now : U64) (rest : List Turn),
      (s.sched = ⟨.sampleEngine, now⟩ :: rest →
        s.producer = [] ∨ s.run = false ∨ s.held ≠ none →
        step s = .next { s with sched := rest }) ∧
      (s.sched = ⟨.sweepTimer, now⟩ :: rest → now.toNat < s.nextSweep.toNat →
        step s = .next { s with sched := rest }) ∧
      (s.sched = ⟨.host, now⟩ :: rest → s.hostQ = [] →
        step s = .next { s with sched := rest }))

/-- R707, R925: while a record is held the sample path stands still; the consumer's acceptance ends it.
The model's own: that the turn of a waiting command is used up (log 3), that the acceptance is a turn
which takes no time input (log 6), that a malformed or misused SAMPLE or INJECT waits too (log 7), and
that exec answers the same state for what the port does not take (log 26). -/
def Obligations.HeldRecordStallsTheSamplePath : Prop :=
  (∀ (i : Instr) (s : State), s.held ≠ none →
    usesOutputPort i = true ∨ i.isCommand = false → exec i s = .next s) ∧
  (∀ (s : State) (now : U64) (rest : List Turn) (c : Command) (more : List Command),
    s.cfg.wf = true → s.held ≠ none → s.sched = ⟨.host, now⟩ :: rest → s.hostQ = c :: more →
    usesOutputPort (decode (.command c)) = true → step s = .next { s with sched := rest }) ∧
  (∀ (s : State) (now : U64) (rest : List Turn),
    s.cfg.wf = true → s.sched = ⟨.consumer, now⟩ :: rest →
    step s = .next { s with sched := rest, held := none })

/-- R841: a step offered with a time input lower than an earlier step's has no move. The model's own: that
this is the fault timeReversed (log 2), the turns and the queues (log 3), that a waiting command is judged
by its operation code (log 7), and that reset may not set the time back (log 23). -/
def Obligations.LowerTimeHasNoMove : Prop :=
  ∀ (s : State) (u : Turn) (rest : List Turn), s.cfg.wf = true → s.sched = u :: rest →
    u.now.toNat < s.now.toNat →
    u.agent = .rst ∨
      (u.agent = .sweepTimer ∧ s.nextSweep.toNat ≤ u.now.toNat) ∨
      (u.agent = .sampleEngine ∧ s.run = true ∧ s.held = none ∧ s.producer ≠ []) ∨
      (u.agent = .host ∧ ∃ c more, s.hostQ = c :: more ∧
        (s.held = none ∨ usesOutputPort (decode (.command c)) = false)) →
    step s = .fault .timeReversed

/-- R7 asks for the refusal of such a configuration; that it is the answer of every step is the model's
form (log 15). -/
def Obligations.ThresholdZeroIsRefused : Prop :=
  ∀ s : State,
    s.cfg.thresholdLow = 0#32 ∨ s.cfg.thresholdMedium = 0#32 ∨ s.cfg.thresholdHigh = 0#32 →
    step s = .refused .thresholdZero

/-- R657, wherever the next due time fits in next_sweep (beyond that it is a free value, log 13). The
model's own: the latest time input in the state (log 2), a turn before next_sweep is used up with no other
effect (log 3), the maps are canonical before and after (log 19), and an entry stored later than now is
kept (log 20). -/
def Obligations.TimerStepSweepsAndAdvances : Prop :=
  ∀ (s : State) (now : U64) (rest : List Turn),
    s.cfg.wf = true → s.sched = ⟨.sweepTimer, now⟩ :: rest → s.now.toNat ≤ now.toNat →
    s.nextSweep.toNat + 10 * s.cfg.ticksPerSecond < 2 ^ 64 →
    KeyMap.wf s.trusted = true → KeyMap.wf s.candidate = true →
    (now.toNat < s.nextSweep.toNat → step s = .next { s with sched := rest }) ∧
    (s.nextSweep.toNat ≤ now.toNat →
      ∃ t : State, step s = .next t ∧
        t = { s with
          sched := rest, now := now, trusted := t.trusted, candidate := t.candidate
          nextSweep := s.nextSweep + BitVec.ofNat 64 (10 * s.cfg.ticksPerSecond) } ∧
        Swept { s with now := now } t)

/-- R900, wherever now_reset plus the period fits in next_sweep (beyond that it is a free value, log
13). The model's own: reset is a turn in the schedule (log 3), its time input is kept as the latest one
(log 2) and is not lower than an earlier one, and the configuration and what the outside world offers stay
(log 23). -/
def Obligations.ResetSetsEveryRegister : Prop :=
  ∀ (s : State) (now : U64) (rest : List Turn),
    s.cfg.wf = true → s.sched = ⟨.rst, now⟩ :: rest → s.now.toNat ≤ now.toNat →
    now.toNat + 10 * s.cfg.ticksPerSecond < 2 ^ 64 →
    step s = .next
      { cfg := s.cfg, ring := Vector.replicate 240 0#16, cursor := 0, prevAvg := 0#64
        fbuf := Vector.replicate 14 0#8, trusted := [], candidate := [], run := false
        level := .medium, timeoutS := 180#24, misuse := false, illegal := false, ovf := false
        res := 0#32, cerr := .ok
        nextSweep := BitVec.ofNat 64 (now.toNat + 10 * s.cfg.ticksPerSecond), out := []
        held := none, now := now, producer := s.producer, hostQ := s.hostQ, sched := rest }

/-- exec answers a next state for every instruction and state; step answers a next state for every
turn whose time input is not lower than the latest one's. R801 and R224 say it of the legal commands,
the samples and the steps that are taken. While a record is held SAMPLE, INJECT, the stream and frames
wait (R707), and with RUN = 0 the stream does (R700): there they do not complete. The model's own: that
exec then answers the same state (log 26), that a turn with no enabled step is used up (log 3), that a
malformed or misused SAMPLE or INJECT waits too (log 7, unsafe), the frame rows as instructions (log 8),
and the latest time input and the thresholds as premises (logs 2 and 15). -/
def Obligations.EveryInstructionCompletes : Prop :=
  (∀ (i : Instr) (s : State), ∃ t : State, exec i s = .next t) ∧
  (∀ s : State, s.cfg.wf = true →
    (∀ (u : Turn) (rest : List Turn), s.sched = u :: rest → s.now.toNat ≤ u.now.toNat) →
    ∃ t : State, step s = .next t)

/-! ### Frames of the instructions -/

/-- R132, R209, R303: what the commands that only report leave as it was. -/
def Obligations.ReportingCommandsChangeOnlyTheResponse : Prop :=
  ∀ (i : Instr) (s t : State), onlyAnswers i = true → exec i s = .next t →
    t = { s with res := t.res, cerr := t.cerr, illegal := t.illegal } ∧
    (i.legal = true → t.illegal = s.illegal)

/-- R757: what the commands other than SAMPLE leave as it was, each register apart from those the
command writes. An INJECT that waits answers the same state (log 26). -/
def Obligations.CommandsWriteOnlyTheirRegisters : Prop :=
  ∀ (i : Instr) (s t : State), i.isCommand = true → (∀ h rsv x q, i ≠ .sample h rsv x q) →
    exec i s = .next t →
    t = { s with
      trusted := t.trusted, candidate := t.candidate, run := t.run, level := t.level
      timeoutS := t.timeoutS, misuse := t.misuse, illegal := t.illegal, ovf := t.ovf
      res := t.res, cerr := t.cerr, out := t.out, held := t.held } ∧
    ((∀ h imm p, i ≠ .inject h imm p) →
      t.ovf = s.ovf ∧ t.out = s.out ∧ t.held = s.held ∧
      ((∀ h imm, i ≠ .sweep h imm) → t.trusted = s.trusted ∧ t.candidate = s.candidate)) ∧
    ((∀ h imm, i ≠ .start h imm) → (∀ h imm, i ≠ .stop h imm) → t.run = s.run) ∧
    ((∀ h rsv level, i ≠ .setlvl h rsv level) → t.level = s.level) ∧
    ((∀ h rsv seconds, i ≠ .settmo h rsv seconds) → t.timeoutS = s.timeoutS) ∧
    (canBeMisused i = false → t.misuse = s.misuse)

/-- R206: what a received or an injected frame leaves as it was; of the maps it touches one key. The
model's own: the frame rows as receptions (logs 8 and 9), and that exec answers the same state while a
record is held (log 26). -/
def Obligations.FrameTouchesOneKey : Prop :=
  (∀ (i : Instr) (d : DownlinkFormat) (f : Frame) (s t : State),
    Receives s.cfg.df24Family i d f → exec i s = .next t →
    t = { s with
      trusted := t.trusted, candidate := t.candidate, ovf := t.ovf, out := t.out
      held := t.held } ∧
    ∀ b : U24, b ≠ frameKey s.cfg f →
      KeyMap.find t.trusted b = KeyMap.find s.trusted b ∧
      KeyMap.find t.candidate b = KeyMap.find s.candidate b) ∧
  (∀ (h : Hdr) (imm : U32) (p : Payload) (s t : State), exec (.inject h imm p) s = .next t →
    t = { s with
      trusted := t.trusted, candidate := t.candidate, ovf := t.ovf, out := t.out
      held := t.held, res := t.res, cerr := t.cerr, misuse := t.misuse, illegal := t.illegal } ∧
    ∀ b : U24, b ≠ frameKey s.cfg ⟨h.len.toNat, p.toList.take h.len.toNat⟩ →
      KeyMap.find t.trusted b = KeyMap.find s.trusted b ∧
      KeyMap.find t.candidate b = KeyMap.find s.candidate b)

/-- R706, R707, R810: an instruction emits at most one record, only while none is held, and only SAMPLE,
INJECT, a stream sample and a received frame emit. The model's own: the port as a field beside the
sequence (log 6), the frame rows as instructions (log 8), and that exec answers the same state for what
the port does not take (log 26). -/
def Obligations.OutputGrowsByAtMostOneRecord : Prop :=
  ∀ (i : Instr) (s t : State), exec i s = .next t →
    (t.out = s.out ∧ t.held = s.held) ∨
    (s.held = none ∧ (usesOutputPort i = true ∨ i.isCommand = false) ∧
      ∃ r : OutRecord, t.out = s.out ++ [r] ∧ t.held = some r)

/-! ### Invariants -/

/-- R122: no step puts a key in both maps. That both keep their canonical form is the model's choice
(log 19). -/
def Obligations.StepKeepsTheMapsDisjoint : Prop :=
  ∀ s t : State, s.mapsOk → step s = .next t → t.mapsOk

/-- R123, R140, R926: every Candidate entry keeps a count of at least 1, the time input never
decreases, and no stored time is later than it. R140 and R841 put the time on the host; that the latest
one is state and a lower one a fault (log 2), and that reset may not set it back (log 23), is the
model's. -/
def Obligations.StepKeepsCountsAndTimes : Prop :=
  (∀ s t : State, s.countsOk → step s = .next t → t.countsOk) ∧
  (∀ s t : State, s.timesOk → step s = .next t → t.timesOk ∧ s.now.toNat ≤ t.now.toNat)

/-- R150, R345, R707: every emitted record keeps its shape, and the record at the port is the latest. The
port as a field beside the sequence is the model's (logs 6 and 24). -/
def Obligations.StepKeepsTheOutputShape : Prop :=
  ∀ s t : State, s.outOk → step s = .next t → t.outOk

/-- R124: no step lets a map grow beyond its capacity. The canonical form, a premise here, is the model's
(log 19). -/
def Obligations.StepKeepsTheCapacities : Prop :=
  ∀ s t : State, s.mapsOk → s.capacityOk → step s = .next t → t.capacityOk

/-- R900 with R130: every piece of the spec's state after reset, and that the invariants hold there. The
model's own: the reference configuration (log 1), the time input 0 (logs 2 and 5), which makes
next_sweep 10000, that nothing is offered (logs 3 and 4), and the canonical form of the maps among the
invariants (log 19). -/
def Obligations.ResetStateMeetsTheInvariants : Prop :=
  State.reset.mapsOk ∧ State.reset.countsOk ∧ State.reset.timesOk ∧ State.reset.outOk ∧
  State.reset.capacityOk ∧ State.reset.cfg.wf = true ∧
  State.reset = {
    cfg := Config.reference, ring := Vector.replicate 240 0#16, cursor := 0, prevAvg := 0#64
    fbuf := Vector.replicate 14 0#8, trusted := [], candidate := [], run := false
    level := .medium, timeoutS := 180#24, misuse := false, illegal := false, ovf := false
    res := 0#32, cerr := .ok, nextSweep := 10000#64, out := [], held := none
    now := 0#64, producer := [], hostQ := [], sched := [] }

/-- R130, R756: only reset clears a bit of STATUS. That reset is a turn of the schedule is the model's
(logs 3 and 23). -/
def Obligations.StatusBitsAreSticky : Prop :=
  ∀ s t : State, step s = .next t →
    (∀ (u : Turn) (rest : List Turn), s.sched = u :: rest → u.agent ≠ .rst) →
    (s.misuse = true → t.misuse = true) ∧ (s.illegal = true → t.illegal = true) ∧
    (s.ovf = true → t.ovf = true)

/-- R659 item 1: a key leaves Trusted only in a sweep that finds it older than the timeout, or by reset.
The model's own: the turns, reset's among them (logs 3 and 23), and that an entry stored later than the
time input is kept (log 20). -/
def Obligations.TrustedKeyLeavesOnlyWhenStale : Prop :=
  ∀ (s t : State) (a : U24) (seen : U64), step s = .next t →
    KeyMap.find s.trusted a = some seen → KeyMap.find t.trusted a = none →
    ∃ (u : Turn) (rest : List Turn), s.sched = u :: rest ∧
      (u.agent = .rst ∨
        (u.agent = .sweepTimer ∨
          (u.agent = .host ∧ ∃ c more, s.hostQ = c :: more ∧ op c = 0x06#8)) ∧
        s.timeoutS.toNat * s.cfg.ticksPerSecond < u.now.toNat - seen.toNat)
end

