-- ==== Sys2Proof/Laws/KeyMap.lean ====
section
/-!
SUPPORT. The laws of the finite maps: read after write, the frame of a write, and that every operation
keeps the canonical form.
-/

namespace Sys2Proof.Machine

variable {β : Type}

@[simp] theorem KeyMap.find_nil (k : U24) : KeyMap.find ([] : KeyMap β) k = none := rfl

@[simp] theorem KeyMap.find_cons (k' : U24) (v : β) (t : KeyMap β) (k : U24) :
    KeyMap.find ((k', v) :: t) k = if k = k' then some v else KeyMap.find t k := rfl

@[simp] theorem KeyMap.has_nil (k : U24) : KeyMap.has ([] : KeyMap β) k = false := rfl

theorem KeyMap.has_eq_true_iff (m : KeyMap β) (k : U24) :
    KeyMap.has m k = true ↔ ∃ v, KeyMap.find m k = some v := by
  simp [KeyMap.has, Option.isSome_iff_exists]

theorem KeyMap.has_eq_false_iff (m : KeyMap β) (k : U24) :
    KeyMap.has m k = false ↔ KeyMap.find m k = none := by
  simp [KeyMap.has]

/-! ### Read after write -/

@[simp] theorem KeyMap.find_put_self (m : KeyMap β) (k : U24) (v : β) :
    KeyMap.find (KeyMap.put m k v) k = some v := by
  induction m with
  | nil => simp [KeyMap.put]
  | cons e t ih =>
    obtain ⟨k', v'⟩ := e
    unfold KeyMap.put
    split
    · simp
    · split
      · simp
      · rename_i hne
        simp [hne, ih]

theorem KeyMap.find_put_ne (m : KeyMap β) {k a : U24} (v : β) (h : a ≠ k) :
    KeyMap.find (KeyMap.put m k v) a = KeyMap.find m a := by
  induction m with
  | nil => simp [KeyMap.put, h]
  | cons e t ih =>
    obtain ⟨k', v'⟩ := e
    unfold KeyMap.put
    split
    · simp [h]
    · split
      · rename_i heq
        subst heq
        simp [h]
      · simp [ih]

theorem KeyMap.find_remove_ne (m : KeyMap β) {k a : U24} (h : a ≠ k) :
    KeyMap.find (KeyMap.remove m k) a = KeyMap.find m a := by
  induction m with
  | nil => rfl
  | cons e t ih =>
    obtain ⟨k', v'⟩ := e
    unfold KeyMap.remove
    split
    · rename_i heq
      subst heq
      simp [h]
    · simp [ih]

@[simp] theorem KeyMap.has_put_self (m : KeyMap β) (k : U24) (v : β) :
    KeyMap.has (KeyMap.put m k v) k = true := by
  simp [KeyMap.has]

theorem KeyMap.has_put_ne (m : KeyMap β) {k a : U24} (v : β) (h : a ≠ k) :
    KeyMap.has (KeyMap.put m k v) a = KeyMap.has m a := by
  simp [KeyMap.has, KeyMap.find_put_ne m v h]

theorem KeyMap.has_remove_ne (m : KeyMap β) {k a : U24} (h : a ≠ k) :
    KeyMap.has (KeyMap.remove m k) a = KeyMap.has m a := by
  simp [KeyMap.has, KeyMap.find_remove_ne m h]

/-! ### Membership -/

theorem KeyMap.mem_put (m : KeyMap β) (k : U24) (v : β) {e : U24 × β}
    (h : e ∈ KeyMap.put m k v) : e = (k, v) ∨ e ∈ m := by
  induction m with
  | nil => simpa [KeyMap.put] using h
  | cons e' t ih =>
    obtain ⟨k', v'⟩ := e'
    unfold KeyMap.put at h
    split at h
    · simpa using h
    · split at h
      · rcases List.mem_cons.mp h with h | h
        · exact .inl h
        · exact .inr (List.mem_cons_of_mem _ h)
      · rcases List.mem_cons.mp h with h | h
        · exact .inr (h ▸ List.mem_cons_self)
        · rcases ih h with h | h
          · exact .inl h
          · exact .inr (List.mem_cons_of_mem _ h)

theorem KeyMap.mem_remove (m : KeyMap β) (k : U24) {e : U24 × β}
    (h : e ∈ KeyMap.remove m k) : e ∈ m := by
  induction m with
  | nil => simp [KeyMap.remove] at h
  | cons e' t ih =>
    obtain ⟨k', v'⟩ := e'
    unfold KeyMap.remove at h
    split at h
    · exact List.mem_cons_of_mem _ h
    · rcases List.mem_cons.mp h with h | h
      · exact h ▸ List.mem_cons_self
      · exact List.mem_cons_of_mem _ (ih h)

theorem KeyMap.mem_of_find (m : KeyMap β) {k : U24} {v : β} (h : KeyMap.find m k = some v) :
    (k, v) ∈ m := by
  induction m with
  | nil => simp at h
  | cons e t ih =>
    obtain ⟨k', v'⟩ := e
    simp only [KeyMap.find_cons] at h
    split at h
    · rename_i heq
      subst heq
      simp only [Option.some.injEq] at h
      simp [h]
    · exact List.mem_cons_of_mem _ (ih h)

/-! ### The canonical form -/

theorem KeyMap.wf_cons (k : U24) (v : β) (t : KeyMap β) :
    KeyMap.wf ((k, v) :: t) = true ↔
      (∀ e ∈ t, k.toNat < e.1.toNat) ∧ KeyMap.wf t = true := by
  induction t generalizing k v with
  | nil => simp [KeyMap.wf]
  | cons e t ih =>
    obtain ⟨k', v'⟩ := e
    simp only [KeyMap.wf, Bool.and_eq_true, decide_eq_true_eq, List.mem_cons, forall_eq_or_imp]
    constructor
    · rintro ⟨h, hw⟩
      exact ⟨⟨h, fun e he => h.trans (((ih k' v').mp hw).1 e he)⟩, hw⟩
    · rintro ⟨⟨h, -⟩, hw⟩
      exact ⟨h, hw⟩

theorem KeyMap.wf_put (m : KeyMap β) (k : U24) (v : β) (h : KeyMap.wf m = true) :
    KeyMap.wf (KeyMap.put m k v) = true := by
  induction m with
  | nil => rfl
  | cons e t ih =>
    obtain ⟨k', v'⟩ := e
    rw [KeyMap.wf_cons] at h
    unfold KeyMap.put
    split
    · rename_i hlt
      rw [KeyMap.wf_cons]
      refine ⟨fun e he => ?_, (KeyMap.wf_cons k' v' t).mpr h⟩
      rcases List.mem_cons.mp he with rfl | he
      · exact hlt
      · exact hlt.trans (h.1 e he)
    · split
      · rename_i heq
        subst heq
        exact (KeyMap.wf_cons _ _ _).mpr h
      · rename_i hlt hne
        rw [KeyMap.wf_cons]
        refine ⟨fun e he => ?_, ih h.2⟩
        rcases KeyMap.mem_put t k v he with rfl | he
        · have : k.toNat ≠ k'.toNat := fun hk => hne (BitVec.eq_of_toNat_eq hk)
          simp only
          omega
        · exact h.1 e he

theorem KeyMap.wf_remove (m : KeyMap β) (k : U24) (h : KeyMap.wf m = true) :
    KeyMap.wf (KeyMap.remove m k) = true := by
  induction m with
  | nil => rfl
  | cons e t ih =>
    obtain ⟨k', v'⟩ := e
    rw [KeyMap.wf_cons] at h
    unfold KeyMap.remove
    split
    · exact h.2
    · exact (KeyMap.wf_cons _ _ _).mpr ⟨fun e he => h.1 e (KeyMap.mem_remove t k he), ih h.2⟩

theorem KeyMap.wf_filter (m : KeyMap β) (p : U24 × β → Bool) (h : KeyMap.wf m = true) :
    KeyMap.wf (m.filter p) = true := by
  induction m with
  | nil => rfl
  | cons e t ih =>
    obtain ⟨k', v'⟩ := e
    rw [KeyMap.wf_cons] at h
    rw [List.filter_cons]
    split
    · exact (KeyMap.wf_cons _ _ _).mpr ⟨fun e he => h.1 e (List.mem_filter.mp he).1, ih h.2⟩
    · exact ih h.2

theorem KeyMap.find_none_of_lt (m : KeyMap β) {k : U24} (h : ∀ e ∈ m, k.toNat < e.1.toNat) :
    KeyMap.find m k = none := by
  induction m with
  | nil => rfl
  | cons e t ih =>
    obtain ⟨k', v'⟩ := e
    have hlt : k.toNat < k'.toNat := h _ List.mem_cons_self
    have hne : k ≠ k' := fun hk => by simp [hk] at hlt
    simp [hne, ih fun e he => h e (List.mem_cons_of_mem _ he)]

theorem KeyMap.find_remove_self (m : KeyMap β) (k : U24) (h : KeyMap.wf m = true) :
    KeyMap.find (KeyMap.remove m k) k = none := by
  induction m with
  | nil => rfl
  | cons e t ih =>
    obtain ⟨k', v'⟩ := e
    rw [KeyMap.wf_cons] at h
    unfold KeyMap.remove
    split
    · rename_i heq
      subst heq
      exact KeyMap.find_none_of_lt t h.1
    · rename_i hne
      simp [hne, ih h.2]

theorem KeyMap.find_filter (m : KeyMap β) (p : U24 × β → Bool) (k : U24)
    (h : KeyMap.wf m = true) :
    KeyMap.find (m.filter p) k = (KeyMap.find m k).filter (fun v => p (k, v)) := by
  induction m with
  | nil => rfl
  | cons e t ih =>
    obtain ⟨k', v'⟩ := e
    rw [KeyMap.wf_cons] at h
    rw [List.filter_cons]
    by_cases hk : k = k'
    · subst hk
      by_cases hp : p (k, v') = true
      · simp [hp, Option.filter_some]
      · simp only [hp, KeyMap.find_cons, if_true, Option.filter_some]
        simp [ih h.2, KeyMap.find_none_of_lt t h.1]
    · split <;> simp [hk, ih h.2]

theorem KeyMap.length_put_absent (m : KeyMap β) (k : U24) (v : β)
    (h : KeyMap.has m k = false) : (KeyMap.put m k v).length = m.length + 1 := by
  induction m with
  | nil => rfl
  | cons e t ih =>
    obtain ⟨k', v'⟩ := e
    rw [KeyMap.has_eq_false_iff, KeyMap.find_cons] at h
    split at h
    · cases h
    · unfold KeyMap.put
      split
      · simp
      · simp [ih ((KeyMap.has_eq_false_iff t k).mpr h)]

theorem KeyMap.length_put_present (m : KeyMap β) (k : U24) (v : β) (hw : KeyMap.wf m = true)
    (h : KeyMap.has m k = true) : (KeyMap.put m k v).length = m.length := by
  induction m with
  | nil => simp at h
  | cons e t ih =>
    obtain ⟨k', v'⟩ := e
    rw [KeyMap.wf_cons] at hw
    unfold KeyMap.put
    obtain ⟨w, hf⟩ := (KeyMap.has_eq_true_iff _ _).mp h
    rw [KeyMap.find_cons] at hf
    split at hf
    · rename_i heq
      subst heq
      simp
    · rename_i hne
      have hlt := hw.1 _ (KeyMap.mem_of_find t hf)
      simp only at hlt
      have hnlt : ¬k.toNat < k'.toNat := by omega
      simp [hnlt, hne, ih hw.2 ((KeyMap.has_eq_true_iff t k).mpr ⟨w, hf⟩)]

theorem KeyMap.length_remove_le (m : KeyMap β) (k : U24) :
    (KeyMap.remove m k).length ≤ m.length := by
  induction m with
  | nil => simp [KeyMap.remove]
  | cons e t ih =>
    obtain ⟨k', v'⟩ := e
    unfold KeyMap.remove
    split <;> simp [ih]

end Sys2Proof.Machine
end

