-- ==== Sys2Proof/Laws/State.lean ====
section
/-!
SUPPORT. What each update of the state does to each field, true by rfl, so that no later proof unfolds
a record update.
-/

namespace Sys2Proof.Machine

/-! ### respond -/

@[simp] theorem respond_cfg (s : State) (v : U32) : (respond s v).cfg = s.cfg := rfl
@[simp] theorem respond_ring (s : State) (v : U32) : (respond s v).ring = s.ring := rfl
@[simp] theorem respond_cursor (s : State) (v : U32) : (respond s v).cursor = s.cursor := rfl
@[simp] theorem respond_prevAvg (s : State) (v : U32) : (respond s v).prevAvg = s.prevAvg := rfl
@[simp] theorem respond_fbuf (s : State) (v : U32) : (respond s v).fbuf = s.fbuf := rfl
@[simp] theorem respond_trusted (s : State) (v : U32) : (respond s v).trusted = s.trusted := rfl
@[simp] theorem respond_candidate (s : State) (v : U32) :
    (respond s v).candidate = s.candidate := rfl
@[simp] theorem respond_run (s : State) (v : U32) : (respond s v).run = s.run := rfl
@[simp] theorem respond_level (s : State) (v : U32) : (respond s v).level = s.level := rfl
@[simp] theorem respond_timeoutS (s : State) (v : U32) : (respond s v).timeoutS = s.timeoutS := rfl
@[simp] theorem respond_misuse (s : State) (v : U32) : (respond s v).misuse = s.misuse := rfl
@[simp] theorem respond_illegal (s : State) (v : U32) : (respond s v).illegal = s.illegal := rfl
@[simp] theorem respond_ovf (s : State) (v : U32) : (respond s v).ovf = s.ovf := rfl
@[simp] theorem respond_res (s : State) (v : U32) : (respond s v).res = v := rfl
@[simp] theorem respond_cerr (s : State) (v : U32) : (respond s v).cerr = .ok := rfl
@[simp] theorem respond_nextSweep (s : State) (v : U32) :
    (respond s v).nextSweep = s.nextSweep := rfl
@[simp] theorem respond_out (s : State) (v : U32) : (respond s v).out = s.out := rfl
@[simp] theorem respond_held (s : State) (v : U32) : (respond s v).held = s.held := rfl
@[simp] theorem respond_now (s : State) (v : U32) : (respond s v).now = s.now := rfl
@[simp] theorem respond_producer (s : State) (v : U32) : (respond s v).producer = s.producer := rfl
@[simp] theorem respond_hostQ (s : State) (v : U32) : (respond s v).hostQ = s.hostQ := rfl
@[simp] theorem respond_sched (s : State) (v : U32) : (respond s v).sched = s.sched := rfl

/-! ### raiseIllegal -/

@[simp] theorem raiseIllegal_cfg (s : State) : (raiseIllegal s).cfg = s.cfg := rfl
@[simp] theorem raiseIllegal_ring (s : State) : (raiseIllegal s).ring = s.ring := rfl
@[simp] theorem raiseIllegal_cursor (s : State) : (raiseIllegal s).cursor = s.cursor := rfl
@[simp] theorem raiseIllegal_prevAvg (s : State) : (raiseIllegal s).prevAvg = s.prevAvg := rfl
@[simp] theorem raiseIllegal_fbuf (s : State) : (raiseIllegal s).fbuf = s.fbuf := rfl
@[simp] theorem raiseIllegal_trusted (s : State) : (raiseIllegal s).trusted = s.trusted := rfl
@[simp] theorem raiseIllegal_candidate (s : State) : (raiseIllegal s).candidate = s.candidate := rfl
@[simp] theorem raiseIllegal_run (s : State) : (raiseIllegal s).run = s.run := rfl
@[simp] theorem raiseIllegal_level (s : State) : (raiseIllegal s).level = s.level := rfl
@[simp] theorem raiseIllegal_timeoutS (s : State) : (raiseIllegal s).timeoutS = s.timeoutS := rfl
@[simp] theorem raiseIllegal_misuse (s : State) : (raiseIllegal s).misuse = s.misuse := rfl
@[simp] theorem raiseIllegal_illegal (s : State) : (raiseIllegal s).illegal = true := rfl
@[simp] theorem raiseIllegal_ovf (s : State) : (raiseIllegal s).ovf = s.ovf := rfl
@[simp] theorem raiseIllegal_res (s : State) : (raiseIllegal s).res = 0#32 := rfl
@[simp] theorem raiseIllegal_cerr (s : State) : (raiseIllegal s).cerr = .illegal := rfl
@[simp] theorem raiseIllegal_nextSweep (s : State) : (raiseIllegal s).nextSweep = s.nextSweep := rfl
@[simp] theorem raiseIllegal_out (s : State) : (raiseIllegal s).out = s.out := rfl
@[simp] theorem raiseIllegal_held (s : State) : (raiseIllegal s).held = s.held := rfl
@[simp] theorem raiseIllegal_now (s : State) : (raiseIllegal s).now = s.now := rfl
@[simp] theorem raiseIllegal_producer (s : State) : (raiseIllegal s).producer = s.producer := rfl
@[simp] theorem raiseIllegal_hostQ (s : State) : (raiseIllegal s).hostQ = s.hostQ := rfl
@[simp] theorem raiseIllegal_sched (s : State) : (raiseIllegal s).sched = s.sched := rfl

/-! ### raiseMisuse -/

@[simp] theorem raiseMisuse_cfg (s : State) : (raiseMisuse s).cfg = s.cfg := rfl
@[simp] theorem raiseMisuse_ring (s : State) : (raiseMisuse s).ring = s.ring := rfl
@[simp] theorem raiseMisuse_cursor (s : State) : (raiseMisuse s).cursor = s.cursor := rfl
@[simp] theorem raiseMisuse_prevAvg (s : State) : (raiseMisuse s).prevAvg = s.prevAvg := rfl
@[simp] theorem raiseMisuse_fbuf (s : State) : (raiseMisuse s).fbuf = s.fbuf := rfl
@[simp] theorem raiseMisuse_trusted (s : State) : (raiseMisuse s).trusted = s.trusted := rfl
@[simp] theorem raiseMisuse_candidate (s : State) : (raiseMisuse s).candidate = s.candidate := rfl
@[simp] theorem raiseMisuse_run (s : State) : (raiseMisuse s).run = s.run := rfl
@[simp] theorem raiseMisuse_level (s : State) : (raiseMisuse s).level = s.level := rfl
@[simp] theorem raiseMisuse_timeoutS (s : State) : (raiseMisuse s).timeoutS = s.timeoutS := rfl
@[simp] theorem raiseMisuse_misuse (s : State) : (raiseMisuse s).misuse = true := rfl
@[simp] theorem raiseMisuse_illegal (s : State) : (raiseMisuse s).illegal = s.illegal := rfl
@[simp] theorem raiseMisuse_ovf (s : State) : (raiseMisuse s).ovf = s.ovf := rfl
@[simp] theorem raiseMisuse_res (s : State) : (raiseMisuse s).res = 0#32 := rfl
@[simp] theorem raiseMisuse_cerr (s : State) : (raiseMisuse s).cerr = .misuse := rfl
@[simp] theorem raiseMisuse_nextSweep (s : State) : (raiseMisuse s).nextSweep = s.nextSweep := rfl
@[simp] theorem raiseMisuse_out (s : State) : (raiseMisuse s).out = s.out := rfl
@[simp] theorem raiseMisuse_held (s : State) : (raiseMisuse s).held = s.held := rfl
@[simp] theorem raiseMisuse_now (s : State) : (raiseMisuse s).now = s.now := rfl
@[simp] theorem raiseMisuse_producer (s : State) : (raiseMisuse s).producer = s.producer := rfl
@[simp] theorem raiseMisuse_hostQ (s : State) : (raiseMisuse s).hostQ = s.hostQ := rfl
@[simp] theorem raiseMisuse_sched (s : State) : (raiseMisuse s).sched = s.sched := rfl

/-! ### setOvf -/

@[simp] theorem setOvf_cfg (s : State) : (setOvf s).cfg = s.cfg := rfl
@[simp] theorem setOvf_ring (s : State) : (setOvf s).ring = s.ring := rfl
@[simp] theorem setOvf_cursor (s : State) : (setOvf s).cursor = s.cursor := rfl
@[simp] theorem setOvf_prevAvg (s : State) : (setOvf s).prevAvg = s.prevAvg := rfl
@[simp] theorem setOvf_fbuf (s : State) : (setOvf s).fbuf = s.fbuf := rfl
@[simp] theorem setOvf_trusted (s : State) : (setOvf s).trusted = s.trusted := rfl
@[simp] theorem setOvf_candidate (s : State) : (setOvf s).candidate = s.candidate := rfl
@[simp] theorem setOvf_run (s : State) : (setOvf s).run = s.run := rfl
@[simp] theorem setOvf_level (s : State) : (setOvf s).level = s.level := rfl
@[simp] theorem setOvf_timeoutS (s : State) : (setOvf s).timeoutS = s.timeoutS := rfl
@[simp] theorem setOvf_misuse (s : State) : (setOvf s).misuse = s.misuse := rfl
@[simp] theorem setOvf_illegal (s : State) : (setOvf s).illegal = s.illegal := rfl
@[simp] theorem setOvf_ovf (s : State) : (setOvf s).ovf = true := rfl
@[simp] theorem setOvf_res (s : State) : (setOvf s).res = s.res := rfl
@[simp] theorem setOvf_cerr (s : State) : (setOvf s).cerr = s.cerr := rfl
@[simp] theorem setOvf_nextSweep (s : State) : (setOvf s).nextSweep = s.nextSweep := rfl
@[simp] theorem setOvf_out (s : State) : (setOvf s).out = s.out := rfl
@[simp] theorem setOvf_held (s : State) : (setOvf s).held = s.held := rfl
@[simp] theorem setOvf_now (s : State) : (setOvf s).now = s.now := rfl
@[simp] theorem setOvf_producer (s : State) : (setOvf s).producer = s.producer := rfl
@[simp] theorem setOvf_hostQ (s : State) : (setOvf s).hostQ = s.hostQ := rfl
@[simp] theorem setOvf_sched (s : State) : (setOvf s).sched = s.sched := rfl

/-! ### emit -/

@[simp] theorem emit_cfg (s : State) (r : OutRecord) : (emit s r).cfg = s.cfg := rfl
@[simp] theorem emit_ring (s : State) (r : OutRecord) : (emit s r).ring = s.ring := rfl
@[simp] theorem emit_cursor (s : State) (r : OutRecord) : (emit s r).cursor = s.cursor := rfl
@[simp] theorem emit_prevAvg (s : State) (r : OutRecord) : (emit s r).prevAvg = s.prevAvg := rfl
@[simp] theorem emit_fbuf (s : State) (r : OutRecord) : (emit s r).fbuf = s.fbuf := rfl
@[simp] theorem emit_trusted (s : State) (r : OutRecord) : (emit s r).trusted = s.trusted := rfl
@[simp] theorem emit_candidate (s : State) (r : OutRecord) :
    (emit s r).candidate = s.candidate := rfl
@[simp] theorem emit_run (s : State) (r : OutRecord) : (emit s r).run = s.run := rfl
@[simp] theorem emit_level (s : State) (r : OutRecord) : (emit s r).level = s.level := rfl
@[simp] theorem emit_timeoutS (s : State) (r : OutRecord) : (emit s r).timeoutS = s.timeoutS := rfl
@[simp] theorem emit_misuse (s : State) (r : OutRecord) : (emit s r).misuse = s.misuse := rfl
@[simp] theorem emit_illegal (s : State) (r : OutRecord) : (emit s r).illegal = s.illegal := rfl
@[simp] theorem emit_ovf (s : State) (r : OutRecord) : (emit s r).ovf = s.ovf := rfl
@[simp] theorem emit_res (s : State) (r : OutRecord) : (emit s r).res = s.res := rfl
@[simp] theorem emit_cerr (s : State) (r : OutRecord) : (emit s r).cerr = s.cerr := rfl
@[simp] theorem emit_nextSweep (s : State) (r : OutRecord) :
    (emit s r).nextSweep = s.nextSweep := rfl
@[simp] theorem emit_out (s : State) (r : OutRecord) : (emit s r).out = s.out ++ [r] := rfl
@[simp] theorem emit_held (s : State) (r : OutRecord) : (emit s r).held = some r := rfl
@[simp] theorem emit_now (s : State) (r : OutRecord) : (emit s r).now = s.now := rfl
@[simp] theorem emit_producer (s : State) (r : OutRecord) : (emit s r).producer = s.producer := rfl
@[simp] theorem emit_hostQ (s : State) (r : OutRecord) : (emit s r).hostQ = s.hostQ := rfl
@[simp] theorem emit_sched (s : State) (r : OutRecord) : (emit s r).sched = s.sched := rfl

/-! ### emitFrame -/

@[simp] theorem emitFrame_cfg (s : State) (d : DownlinkFormat) (f : Frame) (a : U24) :
    (emitFrame s d f a).cfg = s.cfg := rfl
@[simp] theorem emitFrame_ring (s : State) (d : DownlinkFormat) (f : Frame) (a : U24) :
    (emitFrame s d f a).ring = s.ring := rfl
@[simp] theorem emitFrame_cursor (s : State) (d : DownlinkFormat) (f : Frame) (a : U24) :
    (emitFrame s d f a).cursor = s.cursor := rfl
@[simp] theorem emitFrame_prevAvg (s : State) (d : DownlinkFormat) (f : Frame) (a : U24) :
    (emitFrame s d f a).prevAvg = s.prevAvg := rfl
@[simp] theorem emitFrame_fbuf (s : State) (d : DownlinkFormat) (f : Frame) (a : U24) :
    (emitFrame s d f a).fbuf = s.fbuf := rfl
@[simp] theorem emitFrame_trusted (s : State) (d : DownlinkFormat) (f : Frame) (a : U24) :
    (emitFrame s d f a).trusted = s.trusted := rfl
@[simp] theorem emitFrame_candidate (s : State) (d : DownlinkFormat) (f : Frame) (a : U24) :
    (emitFrame s d f a).candidate = s.candidate := rfl
@[simp] theorem emitFrame_run (s : State) (d : DownlinkFormat) (f : Frame) (a : U24) :
    (emitFrame s d f a).run = s.run := rfl
@[simp] theorem emitFrame_level (s : State) (d : DownlinkFormat) (f : Frame) (a : U24) :
    (emitFrame s d f a).level = s.level := rfl
@[simp] theorem emitFrame_timeoutS (s : State) (d : DownlinkFormat) (f : Frame) (a : U24) :
    (emitFrame s d f a).timeoutS = s.timeoutS := rfl
@[simp] theorem emitFrame_misuse (s : State) (d : DownlinkFormat) (f : Frame) (a : U24) :
    (emitFrame s d f a).misuse = s.misuse := rfl
@[simp] theorem emitFrame_illegal (s : State) (d : DownlinkFormat) (f : Frame) (a : U24) :
    (emitFrame s d f a).illegal = s.illegal := rfl
@[simp] theorem emitFrame_ovf (s : State) (d : DownlinkFormat) (f : Frame) (a : U24) :
    (emitFrame s d f a).ovf = s.ovf := rfl
@[simp] theorem emitFrame_res (s : State) (d : DownlinkFormat) (f : Frame) (a : U24) :
    (emitFrame s d f a).res = s.res := rfl
@[simp] theorem emitFrame_cerr (s : State) (d : DownlinkFormat) (f : Frame) (a : U24) :
    (emitFrame s d f a).cerr = s.cerr := rfl
@[simp] theorem emitFrame_nextSweep (s : State) (d : DownlinkFormat) (f : Frame) (a : U24) :
    (emitFrame s d f a).nextSweep = s.nextSweep := rfl
@[simp] theorem emitFrame_out (s : State) (d : DownlinkFormat) (f : Frame) (a : U24) :
    (emitFrame s d f a).out = s.out ++ [frameRecord s.cfg d f a] := rfl
@[simp] theorem emitFrame_held (s : State) (d : DownlinkFormat) (f : Frame) (a : U24) :
    (emitFrame s d f a).held = some (frameRecord s.cfg d f a) := rfl
@[simp] theorem emitFrame_now (s : State) (d : DownlinkFormat) (f : Frame) (a : U24) :
    (emitFrame s d f a).now = s.now := rfl
@[simp] theorem emitFrame_producer (s : State) (d : DownlinkFormat) (f : Frame) (a : U24) :
    (emitFrame s d f a).producer = s.producer := rfl
@[simp] theorem emitFrame_hostQ (s : State) (d : DownlinkFormat) (f : Frame) (a : U24) :
    (emitFrame s d f a).hostQ = s.hostQ := rfl
@[simp] theorem emitFrame_sched (s : State) (d : DownlinkFormat) (f : Frame) (a : U24) :
    (emitFrame s d f a).sched = s.sched := rfl

/-! ### dropCandidate -/

@[simp] theorem dropCandidate_cfg (s : State) (a : U24) : (dropCandidate s a).cfg = s.cfg := rfl
@[simp] theorem dropCandidate_ring (s : State) (a : U24) : (dropCandidate s a).ring = s.ring := rfl
@[simp] theorem dropCandidate_cursor (s : State) (a : U24) :
    (dropCandidate s a).cursor = s.cursor := rfl
@[simp] theorem dropCandidate_prevAvg (s : State) (a : U24) :
    (dropCandidate s a).prevAvg = s.prevAvg := rfl
@[simp] theorem dropCandidate_fbuf (s : State) (a : U24) : (dropCandidate s a).fbuf = s.fbuf := rfl
@[simp] theorem dropCandidate_trusted (s : State) (a : U24) :
    (dropCandidate s a).trusted = s.trusted := rfl
@[simp] theorem dropCandidate_candidate (s : State) (a : U24) :
    (dropCandidate s a).candidate = KeyMap.remove s.candidate a := rfl
@[simp] theorem dropCandidate_run (s : State) (a : U24) : (dropCandidate s a).run = s.run := rfl
@[simp] theorem dropCandidate_level (s : State) (a : U24) :
    (dropCandidate s a).level = s.level := rfl
@[simp] theorem dropCandidate_timeoutS (s : State) (a : U24) :
    (dropCandidate s a).timeoutS = s.timeoutS := rfl
@[simp] theorem dropCandidate_misuse (s : State) (a : U24) :
    (dropCandidate s a).misuse = s.misuse := rfl
@[simp] theorem dropCandidate_illegal (s : State) (a : U24) :
    (dropCandidate s a).illegal = s.illegal := rfl
@[simp] theorem dropCandidate_ovf (s : State) (a : U24) : (dropCandidate s a).ovf = s.ovf := rfl
@[simp] theorem dropCandidate_res (s : State) (a : U24) : (dropCandidate s a).res = s.res := rfl
@[simp] theorem dropCandidate_cerr (s : State) (a : U24) : (dropCandidate s a).cerr = s.cerr := rfl
@[simp] theorem dropCandidate_nextSweep (s : State) (a : U24) :
    (dropCandidate s a).nextSweep = s.nextSweep := rfl
@[simp] theorem dropCandidate_out (s : State) (a : U24) : (dropCandidate s a).out = s.out := rfl
@[simp] theorem dropCandidate_held (s : State) (a : U24) : (dropCandidate s a).held = s.held := rfl
@[simp] theorem dropCandidate_now (s : State) (a : U24) : (dropCandidate s a).now = s.now := rfl
@[simp] theorem dropCandidate_producer (s : State) (a : U24) :
    (dropCandidate s a).producer = s.producer := rfl
@[simp] theorem dropCandidate_hostQ (s : State) (a : U24) :
    (dropCandidate s a).hostQ = s.hostQ := rfl
@[simp] theorem dropCandidate_sched (s : State) (a : U24) :
    (dropCandidate s a).sched = s.sched := rfl

/-! ### sweepMaps -/

@[simp] theorem sweepMaps_cfg (s : State) : (sweepMaps s).cfg = s.cfg := rfl
@[simp] theorem sweepMaps_ring (s : State) : (sweepMaps s).ring = s.ring := rfl
@[simp] theorem sweepMaps_cursor (s : State) : (sweepMaps s).cursor = s.cursor := rfl
@[simp] theorem sweepMaps_prevAvg (s : State) : (sweepMaps s).prevAvg = s.prevAvg := rfl
@[simp] theorem sweepMaps_fbuf (s : State) : (sweepMaps s).fbuf = s.fbuf := rfl
@[simp] theorem sweepMaps_trusted (s : State) :
    (sweepMaps s).trusted = s.trusted.filter (fun e => keeps s e.2) := rfl
@[simp] theorem sweepMaps_candidate (s : State) :
    (sweepMaps s).candidate = s.candidate.filter (fun e => keeps s e.2.lastSeen) := rfl
@[simp] theorem sweepMaps_run (s : State) : (sweepMaps s).run = s.run := rfl
@[simp] theorem sweepMaps_level (s : State) : (sweepMaps s).level = s.level := rfl
@[simp] theorem sweepMaps_timeoutS (s : State) : (sweepMaps s).timeoutS = s.timeoutS := rfl
@[simp] theorem sweepMaps_misuse (s : State) : (sweepMaps s).misuse = s.misuse := rfl
@[simp] theorem sweepMaps_illegal (s : State) : (sweepMaps s).illegal = s.illegal := rfl
@[simp] theorem sweepMaps_ovf (s : State) : (sweepMaps s).ovf = s.ovf := rfl
@[simp] theorem sweepMaps_res (s : State) : (sweepMaps s).res = s.res := rfl
@[simp] theorem sweepMaps_cerr (s : State) : (sweepMaps s).cerr = s.cerr := rfl
@[simp] theorem sweepMaps_nextSweep (s : State) : (sweepMaps s).nextSweep = s.nextSweep := rfl
@[simp] theorem sweepMaps_out (s : State) : (sweepMaps s).out = s.out := rfl
@[simp] theorem sweepMaps_held (s : State) : (sweepMaps s).held = s.held := rfl
@[simp] theorem sweepMaps_now (s : State) : (sweepMaps s).now = s.now := rfl
@[simp] theorem sweepMaps_producer (s : State) : (sweepMaps s).producer = s.producer := rfl
@[simp] theorem sweepMaps_hostQ (s : State) : (sweepMaps s).hostQ = s.hostQ := rfl
@[simp] theorem sweepMaps_sched (s : State) : (sweepMaps s).sched = s.sched := rfl

/-! ### writeSample -/

@[simp] theorem writeSample_cfg (s : State) (i q : Byte) : (writeSample s i q).cfg = s.cfg := rfl
@[simp] theorem writeSample_ring (s : State) (i q : Byte) :
    (writeSample s i q).ring = s.ring.set s.cursor.val (romMag i q) := rfl
@[simp] theorem writeSample_cursor (s : State) (i q : Byte) :
    (writeSample s i q).cursor = s.cursor + 1 := rfl
@[simp] theorem writeSample_prevAvg (s : State) (i q : Byte) :
    (writeSample s i q).prevAvg = s.prevAvg := rfl
@[simp] theorem writeSample_fbuf (s : State) (i q : Byte) : (writeSample s i q).fbuf = s.fbuf := rfl
@[simp] theorem writeSample_trusted (s : State) (i q : Byte) :
    (writeSample s i q).trusted = s.trusted := rfl
@[simp] theorem writeSample_candidate (s : State) (i q : Byte) :
    (writeSample s i q).candidate = s.candidate := rfl
@[simp] theorem writeSample_run (s : State) (i q : Byte) : (writeSample s i q).run = s.run := rfl
@[simp] theorem writeSample_level (s : State) (i q : Byte) :
    (writeSample s i q).level = s.level := rfl
@[simp] theorem writeSample_timeoutS (s : State) (i q : Byte) :
    (writeSample s i q).timeoutS = s.timeoutS := rfl
@[simp] theorem writeSample_misuse (s : State) (i q : Byte) :
    (writeSample s i q).misuse = s.misuse := rfl
@[simp] theorem writeSample_illegal (s : State) (i q : Byte) :
    (writeSample s i q).illegal = s.illegal := rfl
@[simp] theorem writeSample_ovf (s : State) (i q : Byte) : (writeSample s i q).ovf = s.ovf := rfl
@[simp] theorem writeSample_res (s : State) (i q : Byte) : (writeSample s i q).res = s.res := rfl
@[simp] theorem writeSample_cerr (s : State) (i q : Byte) : (writeSample s i q).cerr = s.cerr := rfl
@[simp] theorem writeSample_nextSweep (s : State) (i q : Byte) :
    (writeSample s i q).nextSweep = s.nextSweep := rfl
@[simp] theorem writeSample_out (s : State) (i q : Byte) : (writeSample s i q).out = s.out := rfl
@[simp] theorem writeSample_held (s : State) (i q : Byte) : (writeSample s i q).held = s.held := rfl
@[simp] theorem writeSample_now (s : State) (i q : Byte) : (writeSample s i q).now = s.now := rfl
@[simp] theorem writeSample_producer (s : State) (i q : Byte) :
    (writeSample s i q).producer = s.producer := rfl
@[simp] theorem writeSample_hostQ (s : State) (i q : Byte) :
    (writeSample s i q).hostQ = s.hostQ := rfl
@[simp] theorem writeSample_sched (s : State) (i q : Byte) :
    (writeSample s i q).sched = s.sched := rfl

/-! ### sliceWindow_snd -/

@[simp] theorem sliceWindow_snd_cfg (s : State) : (sliceWindow s).2.cfg = s.cfg := rfl
@[simp] theorem sliceWindow_snd_ring (s : State) : (sliceWindow s).2.ring = s.ring := rfl
@[simp] theorem sliceWindow_snd_cursor (s : State) : (sliceWindow s).2.cursor = s.cursor := rfl
@[simp] theorem sliceWindow_snd_prevAvg (s : State) :
    (sliceWindow s).2.prevAvg = (slice s.cfg s.ring s.cursor s.prevAvg).2.prevAvg := rfl
@[simp] theorem sliceWindow_snd_fbuf (s : State) :
    (sliceWindow s).2.fbuf = (slice s.cfg s.ring s.cursor s.prevAvg).2.fbuf := rfl
@[simp] theorem sliceWindow_snd_trusted (s : State) : (sliceWindow s).2.trusted = s.trusted := rfl
@[simp] theorem sliceWindow_snd_candidate (s : State) :
    (sliceWindow s).2.candidate = s.candidate := rfl
@[simp] theorem sliceWindow_snd_run (s : State) : (sliceWindow s).2.run = s.run := rfl
@[simp] theorem sliceWindow_snd_level (s : State) : (sliceWindow s).2.level = s.level := rfl
@[simp] theorem sliceWindow_snd_timeoutS (s : State) :
    (sliceWindow s).2.timeoutS = s.timeoutS := rfl
@[simp] theorem sliceWindow_snd_misuse (s : State) : (sliceWindow s).2.misuse = s.misuse := rfl
@[simp] theorem sliceWindow_snd_illegal (s : State) : (sliceWindow s).2.illegal = s.illegal := rfl
@[simp] theorem sliceWindow_snd_ovf (s : State) : (sliceWindow s).2.ovf = s.ovf := rfl
@[simp] theorem sliceWindow_snd_res (s : State) : (sliceWindow s).2.res = s.res := rfl
@[simp] theorem sliceWindow_snd_cerr (s : State) : (sliceWindow s).2.cerr = s.cerr := rfl
@[simp] theorem sliceWindow_snd_nextSweep (s : State) :
    (sliceWindow s).2.nextSweep = s.nextSweep := rfl
@[simp] theorem sliceWindow_snd_out (s : State) : (sliceWindow s).2.out = s.out := rfl
@[simp] theorem sliceWindow_snd_held (s : State) : (sliceWindow s).2.held = s.held := rfl
@[simp] theorem sliceWindow_snd_now (s : State) : (sliceWindow s).2.now = s.now := rfl
@[simp] theorem sliceWindow_snd_producer (s : State) :
    (sliceWindow s).2.producer = s.producer := rfl
@[simp] theorem sliceWindow_snd_hostQ (s : State) : (sliceWindow s).2.hostQ = s.hostQ := rfl
@[simp] theorem sliceWindow_snd_sched (s : State) : (sliceWindow s).2.sched = s.sched := rfl

/-! ### timerStep -/

@[simp] theorem timerStep_cfg (s : State) : (timerStep s).cfg = s.cfg := rfl
@[simp] theorem timerStep_ring (s : State) : (timerStep s).ring = s.ring := rfl
@[simp] theorem timerStep_cursor (s : State) : (timerStep s).cursor = s.cursor := rfl
@[simp] theorem timerStep_prevAvg (s : State) : (timerStep s).prevAvg = s.prevAvg := rfl
@[simp] theorem timerStep_fbuf (s : State) : (timerStep s).fbuf = s.fbuf := rfl
@[simp] theorem timerStep_trusted (s : State) :
    (timerStep s).trusted = s.trusted.filter (fun e => keeps s e.2) := rfl
@[simp] theorem timerStep_candidate (s : State) :
    (timerStep s).candidate = s.candidate.filter (fun e => keeps s e.2.lastSeen) := rfl
@[simp] theorem timerStep_run (s : State) : (timerStep s).run = s.run := rfl
@[simp] theorem timerStep_level (s : State) : (timerStep s).level = s.level := rfl
@[simp] theorem timerStep_timeoutS (s : State) : (timerStep s).timeoutS = s.timeoutS := rfl
@[simp] theorem timerStep_misuse (s : State) : (timerStep s).misuse = s.misuse := rfl
@[simp] theorem timerStep_illegal (s : State) : (timerStep s).illegal = s.illegal := rfl
@[simp] theorem timerStep_ovf (s : State) : (timerStep s).ovf = s.ovf := rfl
@[simp] theorem timerStep_res (s : State) : (timerStep s).res = s.res := rfl
@[simp] theorem timerStep_cerr (s : State) : (timerStep s).cerr = s.cerr := rfl
@[simp] theorem timerStep_nextSweep (s : State) :
    (timerStep s).nextSweep = addTicks s.nextSweep s.cfg.sweepPeriod := rfl
@[simp] theorem timerStep_out (s : State) : (timerStep s).out = s.out := rfl
@[simp] theorem timerStep_held (s : State) : (timerStep s).held = s.held := rfl
@[simp] theorem timerStep_now (s : State) : (timerStep s).now = s.now := rfl
@[simp] theorem timerStep_producer (s : State) : (timerStep s).producer = s.producer := rfl
@[simp] theorem timerStep_hostQ (s : State) : (timerStep s).hostQ = s.hostQ := rfl
@[simp] theorem timerStep_sched (s : State) : (timerStep s).sched = s.sched := rfl

/-! ### acceptRecord -/

@[simp] theorem acceptRecord_cfg (s : State) : (acceptRecord s).cfg = s.cfg := rfl
@[simp] theorem acceptRecord_ring (s : State) : (acceptRecord s).ring = s.ring := rfl
@[simp] theorem acceptRecord_cursor (s : State) : (acceptRecord s).cursor = s.cursor := rfl
@[simp] theorem acceptRecord_prevAvg (s : State) : (acceptRecord s).prevAvg = s.prevAvg := rfl
@[simp] theorem acceptRecord_fbuf (s : State) : (acceptRecord s).fbuf = s.fbuf := rfl
@[simp] theorem acceptRecord_trusted (s : State) : (acceptRecord s).trusted = s.trusted := rfl
@[simp] theorem acceptRecord_candidate (s : State) : (acceptRecord s).candidate = s.candidate := rfl
@[simp] theorem acceptRecord_run (s : State) : (acceptRecord s).run = s.run := rfl
@[simp] theorem acceptRecord_level (s : State) : (acceptRecord s).level = s.level := rfl
@[simp] theorem acceptRecord_timeoutS (s : State) : (acceptRecord s).timeoutS = s.timeoutS := rfl
@[simp] theorem acceptRecord_misuse (s : State) : (acceptRecord s).misuse = s.misuse := rfl
@[simp] theorem acceptRecord_illegal (s : State) : (acceptRecord s).illegal = s.illegal := rfl
@[simp] theorem acceptRecord_ovf (s : State) : (acceptRecord s).ovf = s.ovf := rfl
@[simp] theorem acceptRecord_res (s : State) : (acceptRecord s).res = s.res := rfl
@[simp] theorem acceptRecord_cerr (s : State) : (acceptRecord s).cerr = s.cerr := rfl
@[simp] theorem acceptRecord_nextSweep (s : State) : (acceptRecord s).nextSweep = s.nextSweep := rfl
@[simp] theorem acceptRecord_out (s : State) : (acceptRecord s).out = s.out := rfl
@[simp] theorem acceptRecord_held (s : State) : (acceptRecord s).held = none := rfl
@[simp] theorem acceptRecord_now (s : State) : (acceptRecord s).now = s.now := rfl
@[simp] theorem acceptRecord_producer (s : State) : (acceptRecord s).producer = s.producer := rfl
@[simp] theorem acceptRecord_hostQ (s : State) : (acceptRecord s).hostQ = s.hostQ := rfl
@[simp] theorem acceptRecord_sched (s : State) : (acceptRecord s).sched = s.sched := rfl

/-! ### giveTurn -/

@[simp] theorem giveTurn_cfg (s : State) (a : Agent) : (giveTurn s a).cfg = s.cfg := rfl
@[simp] theorem giveTurn_ring (s : State) (a : Agent) : (giveTurn s a).ring = s.ring := rfl
@[simp] theorem giveTurn_cursor (s : State) (a : Agent) : (giveTurn s a).cursor = s.cursor := rfl
@[simp] theorem giveTurn_prevAvg (s : State) (a : Agent) : (giveTurn s a).prevAvg = s.prevAvg := rfl
@[simp] theorem giveTurn_fbuf (s : State) (a : Agent) : (giveTurn s a).fbuf = s.fbuf := rfl
@[simp] theorem giveTurn_trusted (s : State) (a : Agent) : (giveTurn s a).trusted = s.trusted := rfl
@[simp] theorem giveTurn_candidate (s : State) (a : Agent) :
    (giveTurn s a).candidate = s.candidate := rfl
@[simp] theorem giveTurn_run (s : State) (a : Agent) : (giveTurn s a).run = s.run := rfl
@[simp] theorem giveTurn_level (s : State) (a : Agent) : (giveTurn s a).level = s.level := rfl
@[simp] theorem giveTurn_timeoutS (s : State) (a : Agent) :
    (giveTurn s a).timeoutS = s.timeoutS := rfl
@[simp] theorem giveTurn_misuse (s : State) (a : Agent) : (giveTurn s a).misuse = s.misuse := rfl
@[simp] theorem giveTurn_illegal (s : State) (a : Agent) : (giveTurn s a).illegal = s.illegal := rfl
@[simp] theorem giveTurn_ovf (s : State) (a : Agent) : (giveTurn s a).ovf = s.ovf := rfl
@[simp] theorem giveTurn_res (s : State) (a : Agent) : (giveTurn s a).res = s.res := rfl
@[simp] theorem giveTurn_cerr (s : State) (a : Agent) : (giveTurn s a).cerr = s.cerr := rfl
@[simp] theorem giveTurn_nextSweep (s : State) (a : Agent) :
    (giveTurn s a).nextSweep = s.nextSweep := rfl
@[simp] theorem giveTurn_out (s : State) (a : Agent) : (giveTurn s a).out = s.out := rfl
@[simp] theorem giveTurn_held (s : State) (a : Agent) : (giveTurn s a).held = s.held := rfl
@[simp] theorem giveTurn_now (s : State) (a : Agent) : (giveTurn s a).now = s.now := rfl
@[simp] theorem giveTurn_producer (s : State) (a : Agent) :
    (giveTurn s a).producer = s.producer := rfl
@[simp] theorem giveTurn_hostQ (s : State) (a : Agent) : (giveTurn s a).hostQ = s.hostQ := rfl
@[simp] theorem giveTurn_sched (s : State) (a : Agent) :
    (giveTurn s a).sched = ⟨a, s.now⟩ :: s.sched := rfl

/-! ### resetStep -/

@[simp] theorem resetStep_cfg (s : State) : (resetStep s).cfg = s.cfg := rfl
@[simp] theorem resetStep_ring (s : State) : (resetStep s).ring = Vector.replicate 240 0#16 := rfl
@[simp] theorem resetStep_cursor (s : State) : (resetStep s).cursor = 0 := rfl
@[simp] theorem resetStep_prevAvg (s : State) : (resetStep s).prevAvg = 0#64 := rfl
@[simp] theorem resetStep_fbuf (s : State) : (resetStep s).fbuf = Vector.replicate 14 0#8 := rfl
@[simp] theorem resetStep_trusted (s : State) : (resetStep s).trusted = [] := rfl
@[simp] theorem resetStep_candidate (s : State) : (resetStep s).candidate = [] := rfl
@[simp] theorem resetStep_run (s : State) : (resetStep s).run = false := rfl
@[simp] theorem resetStep_level (s : State) : (resetStep s).level = .medium := rfl
@[simp] theorem resetStep_timeoutS (s : State) : (resetStep s).timeoutS = Config.icaoTimeoutS := rfl
@[simp] theorem resetStep_misuse (s : State) : (resetStep s).misuse = false := rfl
@[simp] theorem resetStep_illegal (s : State) : (resetStep s).illegal = false := rfl
@[simp] theorem resetStep_ovf (s : State) : (resetStep s).ovf = false := rfl
@[simp] theorem resetStep_res (s : State) : (resetStep s).res = 0#32 := rfl
@[simp] theorem resetStep_cerr (s : State) : (resetStep s).cerr = .ok := rfl
@[simp] theorem resetStep_nextSweep (s : State) :
    (resetStep s).nextSweep = addTicks s.now s.cfg.sweepPeriod := rfl
@[simp] theorem resetStep_out (s : State) : (resetStep s).out = [] := rfl
@[simp] theorem resetStep_held (s : State) : (resetStep s).held = none := rfl
@[simp] theorem resetStep_now (s : State) : (resetStep s).now = s.now := rfl
@[simp] theorem resetStep_producer (s : State) : (resetStep s).producer = s.producer := rfl
@[simp] theorem resetStep_hostQ (s : State) : (resetStep s).hostQ = s.hostQ := rfl
@[simp] theorem resetStep_sched (s : State) : (resetStep s).sched = s.sched := rfl

end Sys2Proof.Machine
end

