-- ==== Sys2Proof/Laws/Ops.lean ====
section
/-!
SUPPORT. One lemma for each shared operation, saying once everything it can do.
-/

namespace Sys2Proof.Machine

/-! ### Commands -/

/-- The three ways a command ends (R753). -/
theorem runCommand_cases (bad misused : Bool) (effect s : State) :
    (bad = true ∧ runCommand bad misused effect s = .next (raiseIllegal s)) ∨
    (bad = false ∧ misused = true ∧ runCommand bad misused effect s = .next (raiseMisuse s)) ∨
    (bad = false ∧ misused = false ∧ runCommand bad misused effect s = .next effect) := by
  cases bad <;> cases misused <;> simp [runCommand]

@[simp] theorem runCommand_legal (effect s : State) :
    runCommand false false effect s = .next effect := rfl

@[simp] theorem runCommand_bad (misused : Bool) (effect s : State) :
    runCommand true misused effect s = .next (raiseIllegal s) := rfl

@[simp] theorem runCommand_misused (effect s : State) :
    runCommand false true effect s = .next (raiseMisuse s) := rfl

/-- Waiting at the output port, or taken (R707). -/
theorem whenPortFree_cases (s : State) (x : Host.Outcome State Fault Refusal) :
    (∃ r, s.held = some r ∧ whenPortFree s x = .next s) ∨
    (s.held = none ∧ whenPortFree s x = x) := by
  unfold whenPortFree
  cases h : s.held <;> simp

@[simp] theorem badPlain_eq_false (h : Hdr) (imm : U32) :
    badPlain h imm = false ↔ legalPlain h imm = true := by
  simp [badPlain, badHdr, badRsv, legalPlain, and_assoc]

@[simp] theorem badLenForm_eq_false (h : Hdr) (imm : U32) :
    badLenForm h imm = false ↔ legalLen h imm = true := by
  simp [badLenForm, badRsv, legalLen]

@[simp] theorem badImm_eq_false (h : Hdr) (n : Nat) (rsv : BitVec n) :
    badImm h n rsv = false ↔ legalImm h n rsv = true := by
  simp [badImm, badHdr, badRsv, legalImm, and_assoc]

/-! ### The maps -/

/-- R655: the insertion, or the skipped insertion of a new key into a full map. -/
theorem putTrusted_cases (s : State) (a : U24) :
    ((KeyMap.has s.trusted a = true ∨ hasRoom s.cfg.trustedCapacity s.trusted.length = true) ∧
      putTrusted s a = { s with trusted := KeyMap.put s.trusted a s.now }) ∨
    (KeyMap.has s.trusted a = false ∧
      hasRoom s.cfg.trustedCapacity s.trusted.length = false ∧ putTrusted s a = setOvf s) := by
  unfold putTrusted
  cases KeyMap.has s.trusted a <;> cases hasRoom s.cfg.trustedCapacity s.trusted.length <;> simp

/-- R655, for a Candidate key. -/
theorem putCandidate_cases (s : State) (a : U24) (r : CandidateEntry) :
    (hasRoom s.cfg.candidateCapacity s.candidate.length = true ∧
      putCandidate s a r =
        (.apCandidate, { s with candidate := KeyMap.put s.candidate a r })) ∨
    (hasRoom s.cfg.candidateCapacity s.candidate.length = false ∧
      putCandidate s a r = (.candFull, setOvf s)) := by
  unfold putCandidate
  cases hasRoom s.cfg.candidateCapacity s.candidate.length <;> simp

theorem hasRoom_iff (capacity : Option Nat) (n : Nat) :
    hasRoom capacity n = true ↔ ∀ c, capacity = some c → n < c := by
  cases capacity <;> simp [hasRoom]

/-! ### The trust filter -/

/-- The three ways of a PI frame (R651). -/
theorem validatePi_cases (s : State) (d : DownlinkFormat) (f : Frame) :
    ((d = .df18 ∧ frameCf f ≠ 0#3) ∧ validatePi s d f = (.piNoAa, s)) ∨
    (¬(d = .df18 ∧ frameCf f ≠ 0#3) ∧ getIcao s.cfg f = 0#24 ∧
      validatePi s d f = (.piUncorrectable, s)) ∨
    (¬(d = .df18 ∧ frameCf f ≠ 0#3) ∧ getIcao s.cfg f ≠ 0#24 ∧
      validatePi s d f =
        (.emitPi, emitFrame (dropCandidate (putTrusted s (getIcao s.cfg f)) (getIcao s.cfg f))
          d f (getIcao s.cfg f))) := by
  unfold validatePi
  split
  · rename_i h
    exact .inl ⟨h, rfl⟩
  · rename_i h
    simp only
    split
    · rename_i h0
      exact .inr (.inl ⟨h, h0, rfl⟩)
    · rename_i h0
      exact .inr (.inr ⟨h, h0, rfl⟩)

/-- The four ways of an AP frame (R652), the last of them left to `putCandidate_cases`. -/
theorem validateAp_cases (s : State) (d : DownlinkFormat) (f : Frame) :
    (KeyMap.has s.trusted (syndrome24 f) = true ∧
      validateAp s d f = (.emitApTrusted,
        emitFrame { s with trusted := KeyMap.put s.trusted (syndrome24 f) s.now } d f
          (syndrome24 f))) ∨
    (KeyMap.has s.trusted (syndrome24 f) = false ∧
      (threshold s.cfg s.level).toNat ≤ sightings s (syndrome24 f) + 1 ∧
      validateAp s d f = (.emitApPromoted,
        emitFrame (putTrusted (dropCandidate s (syndrome24 f)) (syndrome24 f)) d f
          (syndrome24 f))) ∨
    (KeyMap.has s.trusted (syndrome24 f) = false ∧
      sightings s (syndrome24 f) + 1 < (threshold s.cfg s.level).toNat ∧
      KeyMap.has s.candidate (syndrome24 f) = true ∧
      validateAp s d f = (.apCandidate,
        { s with candidate := (KeyMap.put s.candidate (syndrome24 f)
            ⟨s.now, BitVec.ofNat 32 (sightings s (syndrome24 f) + 1)⟩) })) ∨
    (KeyMap.has s.trusted (syndrome24 f) = false ∧
      sightings s (syndrome24 f) + 1 < (threshold s.cfg s.level).toNat ∧
      KeyMap.has s.candidate (syndrome24 f) = false ∧
      validateAp s d f = putCandidate s (syndrome24 f) ⟨s.now, 1#32⟩) := by
  unfold validateAp
  simp only
  cases hT : KeyMap.has s.trusted (syndrome24 f)
  · by_cases hle : (threshold s.cfg s.level).toNat ≤ sightings s (syndrome24 f) + 1
    · simp [hle]
    · cases hC : KeyMap.has s.candidate (syndrome24 f)
      · simp [hle]; omega
      · simp [hle]; omega
  · simp

/-- The filter judges by the frame's class (R650). -/
theorem validate_eq (s : State) (f : Frame) :
    validate s f =
      (if (downlinkFormat s.cfg.df24Family (f.byte 0)).frameClass = .pi then
        validatePi s (downlinkFormat s.cfg.df24Family (f.byte 0)) f
      else validateAp s (downlinkFormat s.cfg.df24Family (f.byte 0)) f) := by
  unfold validate
  cases h : (downlinkFormat s.cfg.df24Family (f.byte 0)).frameClass <;> simp [h]

/-- The fate of a received frame: dropped unchanged, or judged by the trust filter (R605, R606). -/
theorem receiveFrame_cases (s : State) (f : Frame) :
    (f.byte 0 = 0#8 ∧ receiveFrame s f = (.byte0Zero, s)) ∨
    (f.byte 0 ≠ 0#8 ∧ downlinkFormat s.cfg.df24Family (f.byte 0) = .invalid ∧
      receiveFrame s f = (.dfInvalid, s)) ∨
    (f.byte 0 ≠ 0#8 ∧ downlinkFormat s.cfg.df24Family (f.byte 0) ≠ .invalid ∧
      f.tailZero = true ∧ receiveFrame s f = (.tailZero, s)) ∨
    (f.byte 0 ≠ 0#8 ∧ downlinkFormat s.cfg.df24Family (f.byte 0) ≠ .invalid ∧
      f.tailZero = false ∧ receiveFrame s f = validate s f) := by
  unfold receiveFrame
  by_cases h0 : f.byte 0 = 0#8
  · simp [h0]
  · by_cases hd : downlinkFormat s.cfg.df24Family (f.byte 0) = .invalid
    · simp [h0, hd]
    · cases ht : f.tailZero <;> simp [h0, hd]

/-- The fate of an injected frame (R660). -/
theorem injectFrame_cases (s : State) (len : BitVec 4) (p : Payload) :
    (p[0] = 0#8 ∧ injectFrame s len p = (.byte0Zero, s)) ∨
    (p[0] ≠ 0#8 ∧ downlinkFormat s.cfg.df24Family p[0] = .invalid ∧
      injectFrame s len p = (.dfInvalid, s)) ∨
    (p[0] ≠ 0#8 ∧ downlinkFormat s.cfg.df24Family p[0] ≠ .invalid ∧
      len.toNat ≠ (downlinkFormat s.cfg.df24Family p[0]).lenBytes ∧
      injectFrame s len p = (.lenMismatch, s)) ∨
    (p[0] ≠ 0#8 ∧ downlinkFormat s.cfg.df24Family p[0] ≠ .invalid ∧
      len.toNat = (downlinkFormat s.cfg.df24Family p[0]).lenBytes ∧
      (commandFrame len p).tailZero = true ∧ injectFrame s len p = (.tailZero, s)) ∨
    (p[0] ≠ 0#8 ∧ downlinkFormat s.cfg.df24Family p[0] ≠ .invalid ∧
      len.toNat = (downlinkFormat s.cfg.df24Family p[0]).lenBytes ∧
      (commandFrame len p).tailZero = false ∧
      injectFrame s len p = validate s (commandFrame len p)) := by
  unfold injectFrame
  by_cases h0 : p[0] = 0#8
  · simp [h0]
  · by_cases hd : downlinkFormat s.cfg.df24Family p[0] = .invalid
    · simp [h0, hd]
    · by_cases hl : len.toNat = (downlinkFormat s.cfg.df24Family p[0]).lenBytes
      · cases ht : (commandFrame len p).tailZero <;> simp [h0, hd, hl, ht]
      · simp [h0, hd, hl]

/-! ### The sample path -/

/-- The four ways of a slicing attempt (R600, R605, R606), with the registers it leaves. -/
theorem slice_cases (cfg : Config) (ring : Vector Mag 240) (p : Fin 240) (prevAvg : U64) :
    ∀ r, r = sliceBits (fpFormat cfg.slicerFp) ring p 0 8 (sliceStart cfg prevAvg) →
    ∀ d, d = downlinkFormat cfg.df24Family r.fbuf[0] →
    ∀ r', r' = sliceBits (fpFormat cfg.slicerFp) ring p 8 (8 * d.lenBytes - 8) r →
    (r.fbuf[0] = 0#8 ∧ slice cfg ring p prevAvg = (.abort .byte0Zero, r)) ∨
    (r.fbuf[0] ≠ 0#8 ∧ d = .invalid ∧ slice cfg ring p prevAvg = (.abort .dfInvalid, r)) ∨
    (r.fbuf[0] ≠ 0#8 ∧ d ≠ .invalid ∧ (bufFrame d.lenBytes r'.fbuf).tailZero = true ∧
      slice cfg ring p prevAvg = (.abort .tailZero, r')) ∨
    (r.fbuf[0] ≠ 0#8 ∧ d ≠ .invalid ∧ (bufFrame d.lenBytes r'.fbuf).tailZero = false ∧
      slice cfg ring p prevAvg = (.frame (bufFrame d.lenBytes r'.fbuf), r')) := by
  rintro r hr d hd r' hr'
  have hs : slice cfg ring p prevAvg =
      if r.fbuf[0] = 0#8 then (.abort .byte0Zero, r)
      else if d = .invalid then (.abort .dfInvalid, r)
      else if (bufFrame d.lenBytes r'.fbuf).tailZero then (.abort .tailZero, r')
      else (.frame (bufFrame d.lenBytes r'.fbuf), r') := by
    subst hr' hd hr
    rfl
  rw [hs]
  by_cases h0 : r.fbuf[0] = 0#8
  · exact .inl ⟨h0, by rw [if_pos h0]⟩
  · by_cases hi : d = .invalid
    · exact .inr (.inl ⟨h0, hi, by rw [if_neg h0, if_pos hi]⟩)
    · cases ht : (bufFrame d.lenBytes r'.fbuf).tailZero
      · exact .inr (.inr (.inr ⟨h0, hi, rfl, by simp [h0, hi]⟩))
      · exact .inr (.inr (.inl ⟨h0, hi, rfl, by simp [h0, hi]⟩))

/-- The sample step, its case distinction as an equation (R701). -/
theorem sampleStep_eq (s : State) (i q : Byte) :
    sampleStep s i q =
      if preamble (writeSample s i q).ring (writeSample s i q).cursor = true then
        match (sliceWindow (writeSample s i q)).1 with
        | .abort reason => (reason, (sliceWindow (writeSample s i q)).2)
        | .frame f => validate (sliceWindow (writeSample s i q)).2 f
      else (.noPreamble, writeSample s i q) := by
  unfold sampleStep
  generalize writeSample s i q = w
  simp only []
  cases sliceWindow w with
  | mk v t => cases v <;> rfl

/-- The three ways of a sample step (R701). -/
theorem sampleStep_cases (s : State) (i q : Byte) :
    (preamble (writeSample s i q).ring (writeSample s i q).cursor = false ∧
      sampleStep s i q = (.noPreamble, writeSample s i q)) ∨
    (preamble (writeSample s i q).ring (writeSample s i q).cursor = true ∧
      ∃ reason, (sliceWindow (writeSample s i q)).1 = .abort reason ∧
        sampleStep s i q = (reason, (sliceWindow (writeSample s i q)).2)) ∨
    (preamble (writeSample s i q).ring (writeSample s i q).cursor = true ∧
      ∃ f, (sliceWindow (writeSample s i q)).1 = .frame f ∧
        sampleStep s i q = validate (sliceWindow (writeSample s i q)).2 f) := by
  rw [sampleStep_eq]
  generalize writeSample s i q = w
  cases hp : preamble w.ring w.cursor
  · exact .inl ⟨rfl, rfl⟩
  · cases hv : (sliceWindow w).1 with
    | abort reason => exact .inr (.inl ⟨rfl, reason, rfl, rfl⟩)
    | frame f => exact .inr (.inr ⟨rfl, f, rfl, rfl⟩)

/-! ### Turns -/

/-- What a turn can come to (R840, R841). -/
theorem step_cases (s : State) (hw : s.cfg.wf = true) :
    (∃ t, nextMove s = .still t ∧ step s = .next t) ∨
    (∃ t, nextMove s = .acts t ∧ step s = .next t) ∨
    (∃ i t, nextMove s = .runs i t ∧ step s = exec i t) ∨
    (∃ r, nextMove s = .stuck r ∧ step s = .fault r) := by
  unfold step
  rw [if_pos hw]
  cases nextMove s with
  | still t => exact .inl ⟨t, rfl, rfl⟩
  | acts t => exact .inr (.inl ⟨t, rfl, rfl⟩)
  | runs i t => exact .inr (.inr (.inl ⟨i, t, rfl, rfl⟩))
  | stuck r => exact .inr (.inr (.inr ⟨r, rfl, rfl⟩))

/-- A step whose time input is not lower than the latest step's is taken (R841). -/
theorem atTime_of_le (s : State) (now : U64) (m : Move) (h : s.now.toNat ≤ now.toNat) :
    atTime s now m = m := if_neg (by omega)

/-- A step whose time input is lower than the latest step's has no move (R841). -/
theorem atTime_of_lt (s : State) (now : U64) (m : Move) (h : now.toNat < s.now.toNat) :
    atTime s now m = .stuck .timeReversed := if_pos h

/-- What the turn of an agent comes to: nothing, the consumer's acceptance, no move, or the agent's
step at the time input offered. -/
theorem agentMove_cases (s : State) (u : Turn) :
    agentMove s u = .still s ∨
    (u.agent = .consumer ∧ agentMove s u = .acts (acceptRecord s)) ∨
    (u.agent ≠ .consumer ∧ u.now.toNat < s.now.toNat ∧ agentMove s u = .stuck .timeReversed) ∨
    (s.now.toNat ≤ u.now.toNat ∧
      ((u.agent = .rst ∧ agentMove s u = .acts (resetStep { s with now := u.now })) ∨
       (u.agent = .sweepTimer ∧ s.nextSweep.toNat ≤ u.now.toNat ∧
          agentMove s u = .acts (timerStep { s with now := u.now })) ∨
       (u.agent = .sampleEngine ∧ streamReady s = true ∧ ∃ w more, s.producer = w :: more ∧
          agentMove s u = .runs (decodeStream w) { s with now := u.now, producer := more }) ∨
       (u.agent = .host ∧ ∃ c more, s.hostQ = c :: more ∧ commandWaits s c = false ∧
          agentMove s u = .runs (decodeCommand c) { s with now := u.now, hostQ := more }))) := by
  obtain ⟨a, now⟩ := u
  have ht := Nat.lt_or_ge now.toNat s.now.toNat
  cases a with
  | consumer => exact .inr (.inl ⟨rfl, rfl⟩)
  | rst =>
    rcases ht with h | h
    · exact .inr (.inr (.inl ⟨by simp, h, atTime_of_lt _ _ _ h⟩))
    · exact .inr (.inr (.inr ⟨h, .inl ⟨rfl, atTime_of_le _ _ _ h⟩⟩))
  | sweepTimer =>
    by_cases hd : s.nextSweep.toNat ≤ now.toNat
    · have hm : agentMove s ⟨.sweepTimer, now⟩ =
          atTime s now (.acts (timerStep { s with now := now })) := if_pos hd
      rw [hm]
      rcases ht with h | h
      · exact .inr (.inr (.inl ⟨by simp, h, atTime_of_lt _ _ _ h⟩))
      · exact .inr (.inr (.inr ⟨h, .inr (.inl ⟨rfl, hd, atTime_of_le _ _ _ h⟩)⟩))
    · exact .inl (if_neg hd)
  | sampleEngine =>
    cases hp : s.producer with
    | nil => exact .inl (by simp [agentMove, engineMove, hp])
    | cons w more =>
      cases hr : streamReady s with
      | false => exact .inl (by simp [agentMove, engineMove, hp, hr])
      | true =>
        have hm : agentMove s ⟨.sampleEngine, now⟩ =
            atTime s now (.runs (decodeStream w) { s with now := now, producer := more }) := by
          simp [agentMove, engineMove, hp, hr]
        rw [hm]
        rcases ht with h | h
        · exact .inr (.inr (.inl ⟨by simp, h, atTime_of_lt _ _ _ h⟩))
        · exact .inr (.inr (.inr ⟨h, .inr (.inr (.inl
            ⟨rfl, rfl, w, more, rfl, atTime_of_le _ _ _ h⟩))⟩))
  | host =>
    cases hq : s.hostQ with
    | nil => exact .inl (by simp [agentMove, hostMove, hq])
    | cons c more =>
      cases hc : commandWaits s c with
      | true => exact .inl (by simp [agentMove, hostMove, hq, hc])
      | false =>
        have hm : agentMove s ⟨.host, now⟩ =
            atTime s now (.runs (decodeCommand c) { s with now := now, hostQ := more }) := by
          simp [agentMove, hostMove, hq, hc]
        rw [hm]
        rcases ht with h | h
        · exact .inr (.inr (.inl ⟨by simp, h, atTime_of_lt _ _ _ h⟩))
        · exact .inr (.inr (.inr ⟨h, .inr (.inr (.inr
            ⟨rfl, c, more, rfl, hc, atTime_of_le _ _ _ h⟩))⟩))

/-- The next turn is the head of the schedule, and it is spent whatever comes of it. -/
theorem nextMove_cases (s : State) :
    (s.sched = [] ∧ nextMove s = .still s) ∨
    ∃ u rest, s.sched = u :: rest ∧ nextMove s = agentMove { s with sched := rest } u := by
  unfold nextMove
  cases s.sched with
  | nil => exact .inl ⟨rfl, rfl⟩
  | cons u rest => exact .inr ⟨u, rest, rfl, rfl⟩

end Sys2Proof.Machine
end

