-- ==== Sys2Proof/Laws/PerInstr.lean ====
section
/-!
SUPPORT. The family `TransferKind`, one lemma per constructor: a command is offered at the command port, a
stream word at the stream port, and a frame is received (R300).
-/

namespace Sys2Proof.Laws

/-- A transfer of the command port. -/
def isCommandTransfer : Transfer → Bool
  | .command _ => true
  | .stream _ => false
  | .frame _ => false

/-- The instruction is encoded as a command transfer exactly if it is a command. -/
def TransferKind.Statement (i : Instr) : Prop := isCommandTransfer (encode i) = i.isCommand

theorem TransferKind.nop (h : Hdr) (imm : U32) :
    TransferKind.Statement (.nop h imm) := rfl

theorem TransferKind.start (h : Hdr) (imm : U32) :
    TransferKind.Statement (.start h imm) := rfl

theorem TransferKind.stop (h : Hdr) (imm : U32) :
    TransferKind.Statement (.stop h imm) := rfl

theorem TransferKind.sample (h : Hdr) (rsv : BitVec 16) (i q : Byte) :
    TransferKind.Statement (.sample h rsv i q) := rfl

theorem TransferKind.setlvl (h : Hdr) (rsv : BitVec 30) (level : BitVec 2) :
    TransferKind.Statement (.setlvl h rsv level) := rfl

theorem TransferKind.settmo (h : Hdr) (rsv : BitVec 8) (seconds : U24) :
    TransferKind.Statement (.settmo h rsv seconds) := rfl

theorem TransferKind.sweep (h : Hdr) (imm : U32) :
    TransferKind.Statement (.sweep h imm) := rfl

theorem TransferKind.mag (h : Hdr) (rsv : BitVec 16) (i q : Byte) :
    TransferKind.Statement (.mag h rsv i q) := rfl

theorem TransferKind.crc (h : Hdr) (imm : U32) (p : Payload) :
    TransferKind.Statement (.crc h imm p) := rfl

theorem TransferKind.syn (h : Hdr) (imm : U32) (p : Payload) :
    TransferKind.Statement (.syn h imm p) := rfl

theorem TransferKind.errbit (h : Hdr) (syndrome : U32) :
    TransferKind.Statement (.errbit h syndrome) := rfl

theorem TransferKind.getdf (h : Hdr) (imm : U32) (p : Payload) :
    TransferKind.Statement (.getdf h imm p) := rfl

theorem TransferKind.geticao (h : Hdr) (imm : U32) (p : Payload) :
    TransferKind.Statement (.geticao h imm p) := rfl

theorem TransferKind.inject (h : Hdr) (imm : U32) (p : Payload) :
    TransferKind.Statement (.inject h imm p) := rfl

theorem TransferKind.query (h : Hdr) (rsv : BitVec 8) (icao : U24) :
    TransferKind.Statement (.query h rsv icao) := rfl

theorem TransferKind.read (h : Hdr) (rsv : BitVec 24) (index : Byte) :
    TransferKind.Statement (.read h rsv index) := rfl

theorem TransferKind.reserved (hi lo : BitVec 4) (h : Hdr) (imm : U32) :
    TransferKind.Statement (.reserved hi lo h imm) := rfl

theorem TransferKind.streamSample (i q : Byte) :
    TransferKind.Statement (.streamSample i q) := rfl

theorem TransferKind.df0 (low3 : BitVec 3) (rest : Vector Byte 6) :
    TransferKind.Statement (.df0 low3 rest) := rfl

theorem TransferKind.df4 (low3 : BitVec 3) (rest : Vector Byte 6) :
    TransferKind.Statement (.df4 low3 rest) := rfl

theorem TransferKind.df5 (low3 : BitVec 3) (rest : Vector Byte 6) :
    TransferKind.Statement (.df5 low3 rest) := rfl

theorem TransferKind.df11 (low3 : BitVec 3) (rest : Vector Byte 6) :
    TransferKind.Statement (.df11 low3 rest) := rfl

theorem TransferKind.df16 (low3 : BitVec 3) (rest : Vector Byte 13) :
    TransferKind.Statement (.df16 low3 rest) := rfl

theorem TransferKind.df17 (low3 : BitVec 3) (rest : Vector Byte 13) :
    TransferKind.Statement (.df17 low3 rest) := rfl

theorem TransferKind.df18 (low3 : BitVec 3) (rest : Vector Byte 13) :
    TransferKind.Statement (.df18 low3 rest) := rfl

theorem TransferKind.df20 (low3 : BitVec 3) (rest : Vector Byte 13) :
    TransferKind.Statement (.df20 low3 rest) := rfl

theorem TransferKind.df21 (low3 : BitVec 3) (rest : Vector Byte 13) :
    TransferKind.Statement (.df21 low3 rest) := rfl

theorem TransferKind.df24 (low3 : BitVec 3) (rest : Vector Byte 13) :
    TransferKind.Statement (.df24 low3 rest) := rfl

theorem TransferKind.dfInvalid (df : BitVec 5) (low3 : BitVec 3) (rest : Vector Byte 13) :
    TransferKind.Statement (.dfInvalid df low3 rest) := rfl

end Sys2Proof.Laws
end

