-- ==== Sys2Proof/Tests/Slice0.lean ====
section
/-!
SUPPORT. The model's own tests: the checks of WellFormed on ill-formed terms, words written out from the
spec's encodings, one-step tests whose results are those of 95_test_vectors.md (the vector is named in
each comment), and for each statement a concrete state and operands that meet its hypotheses.
-/

namespace Sys2Proof.Tests

open Sys2Proof Sys2Proof.Machine Sys2Proof.Claims

set_option Elab.async false

/-! ### Small states and frames -/

abbrev r : State := State.reset

/-- A command word with no payload. -/
abbrev cmd (hdr imm : U32) : Command := ⟨hdr, imm, noPayload⟩

abbrev h0 : Hdr := ⟨0, 0⟩

/-- A payload that holds the given bytes and then zeros (R335). -/
abbrev padded (l : List Byte) : Payload := Vector.ofFn fun j => l.getD j.val 0#8

/-- Frame A: DF17, 0x4840D6 (section 1.1). -/
abbrev frameA : Payload :=
  #v[0x8D, 0x48, 0x40, 0xD6, 0x20, 0x2C, 0xC3, 0x71, 0xC3, 0x2C, 0xE0, 0x57, 0x60, 0x98]

/-- Frame A with bit 40 flipped (scenario B). -/
abbrev frameB : Payload :=
  #v[0x8D, 0x48, 0x40, 0xD6, 0x20, 0xAC, 0xC3, 0x71, 0xC3, 0x2C, 0xE0, 0x57, 0x60, 0x98]

/-- Frame A with bits 40 and 41 flipped (scenario C). -/
abbrev frameC : Payload :=
  #v[0x8D, 0x48, 0x40, 0xD6, 0x20, 0xEC, 0xC3, 0x71, 0xC3, 0x2C, 0xE0, 0x57, 0x60, 0x98]

/-- Scenario D: DF11, 0xABCDEF. -/
abbrev frameD : Payload := padded [0x5D, 0xAB, 0xCD, 0xEF, 0x8A, 0x6A, 0xB3]

/-- Frame E: DF4 with the address 0xA1B2C3. -/
abbrev frameE : Payload := padded [0x20, 0x00, 0x0F, 0x1F, 0x84, 0xD8, 0x8C]

/-- RES and CERR of an outcome. -/
abbrev answer (o : Host.Outcome State Fault Refusal) : Option (U32 × CErr) :=
  match o with
  | .next t => some (t.res, t.cerr)
  | _ => none

/-- A field of the next state. -/
abbrev field {α : Type} (o : Host.Outcome State Fault Refusal) (g : State → α) : Option α :=
  match o with
  | .next t => some (g t)
  | _ => none

/-! ### WellFormed -/

theorem test_wf_reserved_below_0x10 : (Instr.reserved 0 5 h0 0).wf = false := by decide
theorem test_wf_dfInvalid_17 : (Instr.dfInvalid 17 0 (Vector.replicate 13 0)).wf = false := by decide
theorem test_legal_reserved_header_bit : (Instr.nop ⟨1, 0⟩ 0).legal = false := by decide
theorem test_legal_unused_len : (Instr.start ⟨0, 1⟩ 0).legal = false := by decide
theorem test_legal_unused_imm : (Instr.stop h0 1).legal = false := by decide
theorem test_legal_sample_imm16 : (Instr.sample h0 1 0 0).legal = false := by decide
theorem test_legal_mag_len : (Instr.mag ⟨0, 1⟩ 0 0 0).legal = false := by decide
theorem test_legal_level_3 : (Instr.setlvl h0 0 3).legal = false := by decide
theorem test_legal_settmo_imm24 : (Instr.settmo h0 1 0).legal = false := by decide
theorem test_legal_crc_imm : (Instr.crc ⟨0, 14⟩ 1 noPayload).legal = false := by decide
theorem test_legal_errbit_header : (Instr.errbit ⟨1, 14⟩ 0).legal = false := by decide
theorem test_legal_getdf_len : (Instr.getdf ⟨0, 1⟩ 0 noPayload).legal = false := by decide
theorem test_legal_read_6 : (Instr.read h0 0 6).legal = false := by decide
theorem test_legal_reserved : (Instr.reserved 1 0 h0 0).legal = false := by decide

/-! ### Words written out from R301, R304, R305, R321 and R330 -/

theorem test_word_nop : decodeTableWord 64 0x0000000000000000 = some (.nop h0 0) := by decide
theorem test_word_start : decodeTableWord 64 0x0000000100000000 = some (.start h0 0) := by decide
theorem test_word_stop : decodeTableWord 64 0x0000000200000000 = some (.stop h0 0) := by decide
theorem test_word_sample :
    decodeTableWord 64 0x000000030000C080 = some (.sample h0 0 0xC0 0x80) := by decide
theorem test_word_setlvl : decodeTableWord 64 0x0000000400000006 = some (.setlvl h0 1 2) := by decide
theorem test_word_settmo :
    decodeTableWord 64 0x000000050100003C = some (.settmo h0 1 60) := by decide
theorem test_word_sweep : decodeTableWord 64 0x00001F0600000001 = some (.sweep ⟨1, 15⟩ 1) := by decide
theorem test_word_mag :
    decodeTableWord 64 0x0000000700010203 = some (.mag h0 1 0x02 0x03) := by decide
theorem test_word_crc :
    decodeTableWord 64 0x00000E0800000000 = some (.crc ⟨0, 14⟩ 0 noPayload) := by decide
theorem test_word_syn :
    decodeTableWord 64 0x0000070900000000 = some (.syn ⟨0, 7⟩ 0 noPayload) := by decide
theorem test_word_errbit :
    decodeTableWord 64 0x00000E0A0091C77F = some (.errbit ⟨0, 14⟩ 0x91C77F) := by decide
theorem test_word_getdf :
    decodeTableWord 72 0x8D0000000B00000000 =
      some (.getdf h0 0 (padded [0x8D])) := by decide
theorem test_word_geticao :
    decodeTableWord 64 0x00000E0C00000000 = some (.geticao ⟨0, 14⟩ 0 noPayload) := by decide
theorem test_word_inject :
    decodeTableWord 64 0x0000070D00000000 = some (.inject ⟨0, 7⟩ 0 noPayload) := by decide
theorem test_word_query :
    decodeTableWord 64 0x0000000E00A1B2C3 = some (.query h0 0 0xA1B2C3) := by decide
theorem test_word_read :
    decodeTableWord 64 0x0000000F00000105 = some (.read h0 1 5) := by decide
theorem test_word_reserved :
    decodeTableWord 64 0x0000000000000000 ≠ decodeTableWord 64 0x0000001000000000 ∧
    decodeTableWord 64 0x000000FE00000000 = some (.reserved 15 14 h0 0) := by decide
theorem test_word_stream : decodeTableWord 16 0xC080 = some (.streamSample 0xC0 0x80) := by decide
theorem test_byte_df0 : decodeTableWord 8 0x05 = some (.df0 5 (Vector.replicate 6 0)) := by decide
theorem test_byte_df4 : decodeTableWord 8 0x20 = some (.df4 0 (Vector.replicate 6 0)) := by decide
theorem test_byte_df5 : decodeTableWord 8 0x28 = some (.df5 0 (Vector.replicate 6 0)) := by decide
theorem test_byte_df11 : decodeTableWord 8 0x5D = some (.df11 5 (Vector.replicate 6 0)) := by decide
theorem test_byte_df16 : decodeTableWord 8 0x80 = some (.df16 0 (Vector.replicate 13 0)) := by decide
theorem test_byte_df17 : decodeTableWord 8 0x8D = some (.df17 5 (Vector.replicate 13 0)) := by decide
theorem test_byte_df18 : decodeTableWord 8 0x97 = some (.df18 7 (Vector.replicate 13 0)) := by decide
theorem test_byte_df20 : decodeTableWord 8 0xA0 = some (.df20 0 (Vector.replicate 13 0)) := by decide
theorem test_byte_df21 : decodeTableWord 8 0xA8 = some (.df21 0 (Vector.replicate 13 0)) := by decide
theorem test_byte_df24 : decodeTableWord 8 0xC0 = some (.df24 0 (Vector.replicate 13 0)) := by decide
theorem test_byte_df1 :
    decode (.frame (bufOfByte0 0x08)) = .dfInvalid 1 0 (Vector.replicate 13 0) := by decide

/-! ### One step: the computing commands -/

/-- V-MAG-1. -/
theorem test_mag_192 : answer (exec (.mag h0 0 192 192) r) = some (46781, .ok) := by decide +kernel
/-- V-MAG-23: 65535.5 is clamped. -/
theorem test_mag_255_128 : answer (exec (.mag h0 0 255 128) r) = some (65535, .ok) := by decide +kernel
/-- R460's example. -/
theorem test_crc_frameA :
    answer (exec (.crc ⟨0, 14⟩ 0 frameA) r) = some (0x00576098, .ok) := by decide +kernel
/-- R451: the sentinel for len 13. -/
theorem test_crc_len13 :
    answer (exec (.crc ⟨0, 13⟩ 0 frameA) r) = some (0x0F000000, .ok) := by decide +kernel
/-- R461's example. -/
theorem test_syn_frameB :
    answer (exec (.syn ⟨0, 14⟩ 0 frameB) r) = some (0x0091C77F, .ok) := by decide +kernel
/-- Scenario E: an AP frame gives its address. -/
theorem test_syn_frameE :
    answer (exec (.syn ⟨0, 7⟩ 0 frameE) r) = some (0x00A1B2C3, .ok) := by decide +kernel
/-- R462's example. -/
theorem test_errbit_40 :
    answer (exec (.errbit ⟨0, 14⟩ 0x91C77F) r) = some (40, .ok) := by decide +kernel
/-- R462: the true syndrome of position 0 is in no table. -/
theorem test_errbit_position0 :
    answer (exec (.errbit ⟨0, 14⟩ 0x3935EA) r) = some (0xFFFFFFFF, .ok) := by decide +kernel
/-- R502's example. -/
theorem test_getdf_8d : answer (exec (.getdf h0 0 frameA) r) = some (17, .ok) := by decide +kernel
/-- R502: 0xC8 is no format in the reference configuration. -/
theorem test_getdf_c8 :
    answer (exec (.getdf h0 0 (padded [0xC8])) r) = some (0xFFFFFFFF, .ok) := by decide +kernel
/-- R503's example. -/
theorem test_geticao_frameB :
    answer (exec (.geticao ⟨0, 14⟩ 0 frameB) r) = some (0x004840D6, .ok) := by decide +kernel
/-- Scenario C. -/
theorem test_geticao_frameC :
    answer (exec (.geticao ⟨0, 14⟩ 0 frameC) r) = some (0, .ok) := by decide +kernel

/-! ### One step: the control and trust commands -/

/-- R750: NOP clears the effect of an earlier error on CERR, not the sticky bits. -/
theorem test_nop_clears_cerr :
    field (exec (.nop h0 0) { r with cerr := .illegal, illegal := true }) (fun t => (t.cerr, t.illegal))
      = some (.ok, true) := by decide +kernel
/-- R751's example: a second START. -/
theorem test_start_twice :
    field (exec (.start h0 0) { r with run := true }) (fun t => (t.cerr, t.misuse, t.run))
      = some (.misuse, true, true) := by decide +kernel
/-- R752. -/
theorem test_stop : field (exec (.stop h0 0) { r with run := true }) (·.run) = some false := by
  decide +kernel
/-- R754: level 3 leaves LEVEL unchanged. -/
theorem test_setlvl_3 :
    field (exec (.setlvl h0 0 3) r) (fun t => (t.level, t.cerr)) = some (.medium, .illegal) := by
  decide +kernel
/-- R755's example. -/
theorem test_settmo_60 : field (exec (.settmo h0 0 60) r) (·.timeoutS) = some 60 := by decide +kernel
/-- R758: READ 0 right after reset. -/
theorem test_read0_after_reset : answer (exec (.read h0 0 0) r) = some (0x00000010, .ok) := by
  decide +kernel
/-- R758: READ 2 at level HIGH. -/
theorem test_read2_high :
    answer (exec (.read h0 0 2) { r with level := .high }) = some (5, .ok) := by decide +kernel
/-- R656: an entry exactly 180 s old is kept, one tick more and it goes (V-TF-12, V-TF-13). -/
theorem test_sweep_boundary :
    field (exec (.sweep h0 0) { r with now := 180001, trusted := [(5, 0), (6, 1)] })
      (fun t => (t.res, t.trusted)) = some (1, [(6, 1)]) := by decide +kernel
/-- Scenario D. -/
theorem test_inject_frameD :
    field (exec (.inject ⟨0, 7⟩ 0 frameD) r) (fun t => (t.res, t.trusted, t.out.length))
      = some (1, [(0xABCDEF, 0)], 1) := by decide +kernel
/-- Scenario F, its second frame. -/
theorem test_inject_frameE_promotes :
    field (exec (.inject ⟨0, 7⟩ 0 frameE) { r with candidate := [(0xA1B2C3, ⟨0, 1⟩)] })
      (fun t => (t.res, t.trusted, t.candidate)) = some (3, [(0xA1B2C3, 0)], []) := by decide +kernel
/-- R661's example. -/
theorem test_query_candidate :
    answer (exec (.query h0 0 0xA1B2C3) { r with candidate := [(0xA1B2C3, ⟨0, 1⟩)] })
      = some (0x00000102, .ok) := by decide +kernel
/-- R306. -/
theorem test_reserved :
    field (exec (.reserved 1 0 h0 0) r) (fun t => (t.res, t.cerr, t.illegal))
      = some (0, .illegal, true) := by decide +kernel

/-! ### One step: the sample path and the rows of R321 -/

/-- R702's example. -/
theorem test_sample_after_reset :
    field (exec (.sample h0 0 192 192) r) (fun t => (t.res, t.ring[0], t.cursor))
      = some (0, 46781, 1) := by decide +kernel
/-- R700: a stream sample writes no response. -/
theorem test_stream_sample :
    field (exec (.streamSample 192 192) { r with run := true, res := 7 })
      (fun t => (t.res, t.ring[0], t.cursor)) = some (7, 46781, 1) := by decide +kernel
/-- Scenario D through the sample path: the last sample of the burst detects frame D. -/
theorem test_burst_of_frameD :
    field (step (offerTransfer r (.frame frameD))) (fun t => (t.out, t.trusted)) =
      some ([⟨[0x5D, 0xAB, 0xCD, 0xEF, 0x8A, 0x6A, 0xB3], 7, 11, 0xABCDEF⟩], [(0xABCDEF, 0)]) := by
  decide +kernel
/-- Scenario A as a received frame. -/
theorem test_df17_frameA :
    field (exec (decode (.frame frameA)) r) (fun t => (t.trusted, t.out.length))
      = some ([(0x4840D6, 0)], 1) := by decide +kernel
/-- Scenario D as a received frame. -/
theorem test_df11_frameD :
    field (exec (decode (.frame frameD)) r) (·.trusted) = some [(0xABCDEF, 0)] := by decide +kernel
/-- Scenario E as a received frame. -/
theorem test_df4_frameE :
    field (exec (decode (.frame frameE)) r) (fun t => (t.candidate, t.out))
      = some ([(0xA1B2C3, ⟨0, 1⟩)], []) := by decide +kernel
/-- R605: a DF0 frame whose first byte is 0 is dropped. -/
theorem test_df0_byte0_zero :
    field (exec (.df0 0 (Vector.replicate 6 0xFF)) r) (fun t => (t.candidate, t.out))
      = some ([], []) := by decide +kernel
/-- R651: DF18 with CF not 0 gives no trust. -/
theorem test_df18_cf :
    field (exec (.df18 1 (Vector.replicate 13 0xFF)) r) (fun t => (t.trusted, t.out))
      = some ([], []) := by decide +kernel
/-- R606: a frame whose last three bytes are 0 is dropped. -/
theorem test_df20_tail_zero :
    field (exec (.df20 0 (Vector.replicate 13 0)) r) (·.candidate) = some [] := by decide +kernel
/-- R501: DF 25 is dropped in the reference configuration, and reported as 24 under DF24_FAMILY. -/
theorem test_df25_family :
    field (exec (.dfInvalid 25 0 (Vector.replicate 13 1)) r) (·.out) = some [] ∧
    field (exec (.dfInvalid 25 0 (Vector.replicate 13 1))
      { r with cfg := { Config.reference with df24Family := true }, level := .low })
      (fun t => t.out.map (·.df)) = some [24] := by decide +kernel
/-- The remaining AP rows at level LOW promote on the first sighting (V-TF-1). -/
theorem test_ap_rows_emit :
    ([.df5 0 (Vector.replicate 6 1), .df16 0 (Vector.replicate 13 1), .df21 0 (Vector.replicate 13 1),
        .df24 0 (Vector.replicate 13 1)] : List Instr).map
      (fun i => field (exec i { r with level := .low }) (fun t => t.out.map (·.df)))
      = [some [5], some [16], some [21], some [24]] := by decide +kernel
/-- A table word is run as the first instruction after reset. -/
theorem test_first_instruction_mag :
    answer (step (r.withFetchWord 64 0x000000070000C0C0)) = some (46781, .ok) := by decide +kernel

/-! ### Witnesses: for each statement a state and operands that meet its hypotheses -/

/-- A command that waits for nothing: host's turn, one command, a time input. -/
abbrev offered (s : State) (now : U64) (c : Command) : State :=
  { s with sched := [⟨.host, now⟩], hostQ := [c] }

/-- One Trusted key, one Candidate key, at time 200000. -/
abbrev busy : State :=
  { r with now := 200000, trusted := [(5, 10000), (9, 100000)], candidate := [(7, ⟨150000, 1⟩)] }

abbrev recD : OutRecord := ⟨[0x5D, 0xAB, 0xCD, 0xEF, 0x8A, 0x6A, 0xB3], 7, 11, 0xABCDEF⟩

/-- A state with a record at the output port. -/
abbrev stalled : State := { r with run := true, out := [recD], held := some recD }

/-- A Trusted map with no room for a key. -/
abbrev fullCfg : Config :=
  { Config.reference with trustedCapacity := some 0, candidateCapacity := some 0 }

/-- Frame A as a frame. -/
abbrev fA : Frame := ⟨14, frameA.toList⟩

abbrev fD : Frame := ⟨7, recD.payload⟩

abbrev fE : Frame := ⟨7, [0x20, 0x00, 0x0F, 0x1F, 0x84, 0xD8, 0x8C]⟩

/-- Frame E as an instruction. -/
abbrev iE : Instr := .df4 0 #v[0x00, 0x0F, 0x1F, 0x84, 0xD8, 0x8C]

theorem witness_nop :
    (op (cmd 0 0) = 0x00#8 ∧ (cmd 0 0).hdr = 0x00#32 ∧ (cmd 0 0).imm = 0#32) ∧
    (op (cmd 0x100 0) = 0x00#8 ∧ ¬((cmd 0x100 0).hdr = 0x00#32 ∧ (cmd 0x100 0).imm = 0#32)) := by
  decide

theorem witness_start :
    (op (cmd 1 0) = 0x01#8 ∧ (cmd 1 0).hdr = 0x01#32 ∧ (cmd 1 0).imm = 0#32 ∧ r.run = false) ∧
    stalled.run = true ∧ (op (cmd 1 1) = 0x01#8 ∧ (cmd 1 1).imm ≠ 0#32) := by decide

theorem witness_stop :
    (op (cmd 2 0) = 0x02#8 ∧ (cmd 2 0).hdr = 0x02#32 ∧ (cmd 2 0).imm = 0#32) ∧
    (op (cmd 0x1002 0) = 0x02#8 ∧ (cmd 0x1002 0).hdr ≠ 0x02#32) := by decide

theorem witness_setlvl :
    (op (cmd 4 2) = 0x04#8 ∧ (cmd 4 2).hdr = 0x04#32 ∧
      (cmd 4 2).imm = BitVec.ofNat 32 (levelNumber .high)) ∧
    (op (cmd 4 3) = 0x04#8 ∧ ¬(cmd 4 3).imm.toNat ≤ 2) := by decide

theorem witness_settmo :
    (op (cmd 5 0xFFFFFF) = 0x05#8 ∧ (cmd 5 0xFFFFFF).hdr = 0x05#32 ∧
      (cmd 5 0xFFFFFF).imm.toNat < 2 ^ 24) ∧
    (op (cmd 5 0x1000000) = 0x05#8 ∧ ¬(cmd 5 0x1000000).imm.toNat < 2 ^ 24) := by decide

theorem witness_read :
    (∀ n : Fin 6, op (cmd 0x0F (BitVec.ofNat 32 n.val)) = 0x0F#8 ∧
      (cmd 0x0F (BitVec.ofNat 32 n.val)).hdr = 0x0F#32) ∧
    ({ r with level := .low } : State).level = .low ∧ r.level = .medium ∧
    ({ r with level := .high } : State).level = .high ∧
    (op (cmd 0x0F 6) = 0x0F#8 ∧ ¬(cmd 0x0F 6).imm.toNat ≤ 5) := by decide

theorem witness_mag :
    (op (cmd 7 0xFFFF) = 0x07#8 ∧ (cmd 7 0xFFFF).hdr = 0x07#32 ∧ (cmd 7 0xFFFF).imm.toNat < 2 ^ 16) ∧
    (op (cmd 7 0x10000) = 0x07#8 ∧ ¬(cmd 7 0x10000).imm.toNat < 2 ^ 16) := by decide

theorem witness_crc :
    (op (cmd 0x708 0) = 0x08#8 ∧ reservedZero (cmd 0x708 0) ∧ len (cmd 0x708 0) = 7) ∧
    (op (cmd 0xE08 0) = 0x08#8 ∧ reservedZero (cmd 0xE08 0) ∧ len (cmd 0xE08 0) = 14) ∧
    (op (cmd 0xF08 0) = 0x08#8 ∧ reservedZero (cmd 0xF08 0) ∧ len (cmd 0xF08 0) = 15) ∧
    (op (cmd 0x1708 0) = 0x08#8 ∧ ¬reservedZero (cmd 0x1708 0)) := by
  unfold reservedZero; decide

theorem witness_syn :
    (op (cmd 0x709 0) = 0x09#8 ∧ reservedZero (cmd 0x709 0) ∧ len (cmd 0x709 0) = 7) ∧
    (op (cmd 0xE09 0) = 0x09#8 ∧ reservedZero (cmd 0xE09 0) ∧ len (cmd 0xE09 0) = 14) ∧
    (op (cmd 0x609 0) = 0x09#8 ∧ reservedZero (cmd 0x609 0) ∧ len (cmd 0x609 0) = 6) ∧
    (op (cmd 0x709 1) = 0x09#8 ∧ (cmd 0x709 1).imm ≠ 0#32) := by
  unfold reservedZero; decide

/-- The first and the last position that can be answered, and a syndrome that is in no table. -/
theorem witness_errbit :
    (op (cmd 0xE0A 0x9E31E9) = 0x0A#8 ∧ reservedZero (cmd 0xE0A 0x9E31E9) ∧
      len (cmd 0xE0A 0x9E31E9) = 14 ∧ (cmd 0xE0A 0x9E31E9).imm.toNat = (romSyn 14 5).toNat) ∧
    (op (cmd 0x70A 1) = 0x0A#8 ∧ len (cmd 0x70A 1) = 7 ∧
      (cmd 0x70A 1).imm.toNat = (romSyn 7 55).toNat) ∧
    (op (cmd 0x80A 1) = 0x0A#8 ∧ reservedZero (cmd 0x80A 1) ∧ len (cmd 0x80A 1) = 8) ∧
    (op (cmd 0x170A 1) = 0x0A#8 ∧ ¬reservedZero (cmd 0x170A 1)) := by
  unfold reservedZero; decide +kernel

theorem witness_getdf :
    (op ⟨0x0B, 0, frameA⟩ = 0x0B#8 ∧ frameA[0].toNat / 8 ∈ [0, 4, 5, 11, 16, 17, 18, 20, 21, 24]) ∧
    (padded [0xC8])[0].toNat / 8 = 25 ∧ (padded [0x08])[0].toNat / 8 = 1 ∧
    (op (cmd 0x10B 0) = 0x0B#8 ∧ (cmd 0x10B 0).hdr ≠ 0x0B#32) := by decide

theorem witness_geticao :
    (op (cmd 0xE0C 0) = 0x0C#8 ∧ reservedZero (cmd 0xE0C 0)) ∧
    (op (cmd 0x1E0C 0) = 0x0C#8 ∧ ¬reservedZero (cmd 0x1E0C 0)) := by unfold reservedZero; decide

/-- Every clause of R505: no length, no format, AP, DF18 without an address, clean, corrected,
unrecoverable, and the masked match of a DF11 frame with a wrong bit 5. -/
theorem witness_address_classes :
    downlinkFormat false 0x08 = .invalid ∧ downlinkFormat false (fE.byte 0) = .df4 ∧
    downlinkFormat false 0x91 = .df18 ∧ 0x91#8 &&& 7#8 ≠ 0#8 ∧
    downlinkFormat false (fA.byte 0) = .df17 ∧ syndrome24 fA = 0#24 ∧
    errorBit 14 ((syndrome24 (fA.flip 40)).setWidth 32) = some 40 ∧
    errorBit 14 ((syndrome24 ((fA.flip 40).flip 41)).setWidth 32) = none ∧
    errorBitMasked df11Mask 7 ((syndrome24 (fD.flip 9) &&& df11Mask).setWidth 32) = some 9 := by
  decide +kernel

theorem witness_whole_frames : wholeFrame fA ∧ wholeFrame fD ∧ syndrome24 fA = 0#24 ∧
    syndrome24 fD = 0#24 := by unfold wholeFrame; decide +kernel

theorem witness_generated_parity :
    fD.bytes.take 4 = [0x5D, 0xAB, 0xCD, 0xEF] ∧ fD.parity = checksum24 fD ^^^ 0#24 := by
  decide +kernel

theorem witness_wrong_bits : (fA.byte 0).toNat / 8 = 17 ∧ (fD.byte 0).toNat / 8 = 11 ∧
    fA.len = 14 ∧ fA.bytes.length = 14 ∧ syndrome24 fA = 0#24 ∧ (syndrome24 fD).toNat < 128 := by
  decide +kernel

theorem witness_sweep :
    (op (cmd 6 0) = 0x06#8 ∧ KeyMap.wf busy.trusted = true ∧ KeyMap.wf busy.candidate = true) ∧
    field (exec (.sweep h0 0) busy) (fun t => (t.res, t.trusted)) = some (1, [(9, 100000)]) ∧
    (op (cmd 6 1) = 0x06#8 ∧ (cmd 6 1).imm ≠ 0#32) := by decide +kernel

theorem witness_query :
    (op (cmd 0x0E 7) = 0x0E#8 ∧ (cmd 0x0E 7).imm.toNat < 2 ^ 24 ∧
      KeyMap.find busy.candidate 7 = some ⟨150000, 1⟩) ∧
    KeyMap.find busy.candidate 5 = none ∧
    (op (cmd 0x0E 0x1000000) = 0x0E#8 ∧ ¬(cmd 0x0E 0x1000000).imm.toNat < 2 ^ 24) := by decide

/-- Each check of INJECT in its order, the last two on frames of the format's own length. -/
theorem witness_inject :
    (op ⟨0x70D, 0, frameD⟩ = 0x0D#8 ∧ reservedZero ⟨0x70D, 0, frameD⟩ ∧ r.held = none ∧
      r.run = false ∧ len ⟨0x70D, 0, frameD⟩ = DownlinkFormat.df11.lenBytes ∧
      downlinkFormat false frameD[0] = .df11 ∧ (⟨7, frameD.toList.take 7⟩ : Frame).parity ≠ 0#24) ∧
    (padded [0x58])[0] = 0x58#8 ∧ (⟨7, (padded [0x58]).toList.take 7⟩ : Frame).parity = 0#24 ∧
    noPayload[0] = 0#8 ∧ downlinkFormat false 0x08 = .invalid ∧
    len ⟨0xE0D, 0, frameD⟩ ≠ DownlinkFormat.df11.lenBytes ∧ ¬reservedZero (cmd 0x170D 0) := by
  unfold reservedZero; decide +kernel

theorem fits_none (n : Nat) : fits none n := by simp [fits]

theorem not_fits_zero (n : Nat) : ¬fits (some 0) n := by simp [fits]

theorem witness_pi :
    downlinkFormat r.cfg.df24Family (fD.byte 0) = .df11 ∧ getIcao r.cfg fD = 0xABCDEF#24 ∧
    downlinkFormat false 0x91 = .df18 ∧ getIcao r.cfg (fA.flip 40 |>.flip 41) = 0#24 ∧
    KeyMap.find r.trusted 0xABCDEF = none := by decide +kernel

theorem witness_pi_capacity : fits r.cfg.trustedCapacity r.trusted.length ∧
    ¬fits fullCfg.trustedCapacity 0 := ⟨fits_none _, not_fits_zero _⟩

/-- The AP clauses: trusted; at the threshold; below it with the key present and absent, with and
without room (`fits_none`, `not_fits_zero`). -/
theorem witness_ap :
    downlinkFormat r.cfg.df24Family (fE.byte 0) = .df4 ∧ syndrome24 fE = 0xA1B2C3#24 ∧
    (KeyMap.find [(0xA1B2C3#24, 0#64)] 0xA1B2C3).isSome = true ∧
    KeyMap.find r.trusted 0xA1B2C3 = none ∧ KeyMap.find r.candidate 0xA1B2C3 = none ∧
    (threshold r.cfg .low).toNat = 0 + 1 ∧ (threshold r.cfg .medium).toNat = 0 + 2 ∧
    (threshold r.cfg .high).toNat = 5 := by decide +kernel

theorem reset_mapsOk : r.mapsOk :=
  ⟨rfl, rfl, fun _ h => absurd h.1 Bool.false_ne_true⟩

theorem witness_receives : Receives r.cfg.df24Family iE .df4 fE := ⟨rfl, by decide⟩

/-- A DF20 frame whose parity is its checksum xor 0xA1B2C3 (R456), so that it has frame E's syndrome. -/
abbrev iE20 : Instr := .df20 0 #v[0, 0x0F, 0x1F, 0, 0, 0, 0, 0, 0, 0, 0x39, 0x3E, 0x37]

theorem witness_ap_sightings :
    ApSighting r.cfg.df24Family iE .df4 fE 0xA1B2C3 ∧
    ApSighting r.cfg.df24Family iE20 .df20
      (longFrame 20 0 #v[0, 0x0F, 0x1F, 0, 0, 0, 0, 0, 0, 0, 0x39, 0x3E, 0x37]) 0xA1B2C3 :=
  ⟨⟨witness_receives, by decide +kernel⟩, ⟨⟨rfl, rfl⟩, by decide +kernel⟩⟩

/-- One sighting short of the threshold of 2; the two formats of witness_ap_sightings, of the 5 at level
High. The sighting that reaches the threshold is either of them. -/
theorem witness_promotion :
    r.mapsOk ∧ r.held = none ∧ r.cfg.trustedCapacity = none ∧ r.cfg.candidateCapacity = none ∧
    (∀ x ∈ [(iE, 3000#64), (iE20, 4000#64)], ∃ d f, ApSighting r.cfg.df24Family x.1 d f 0xA1B2C3) ∧
    KeyMap.find r.trusted 0xA1B2C3 = none ∧ KeyMap.find r.candidate 0xA1B2C3 = none ∧
    [(iE, 3000#64)].length + 1 = (threshold r.cfg r.level).toNat ∧
    [(iE, 3000#64), (iE20, 4000#64)].length < (threshold r.cfg .high).toNat := by
  refine ⟨reset_mapsOk, rfl, rfl, rfl, ?_, rfl, rfl, by decide, by decide⟩
  intro x hx
  rcases List.mem_cons.1 hx with h | h
  · subst h; exact ⟨_, _, witness_ap_sightings.1⟩
  · cases List.mem_singleton.1 h; exact ⟨_, _, witness_ap_sightings.2⟩

/-- A frame for the filter, one with a zero first byte, one with a zero tail, an invalid one, and DF 31
under DF24_FAMILY. -/
theorem witness_received :
    r.held = none ∧ Receives r.cfg.df24Family iE .df4 fE ∧
    (shortFrame 0 0 (Vector.replicate 6 1)).byte 0 = 0#8 ∧
    (longFrame 20 0 (Vector.replicate 13 0)).parity = 0#24 ∧
    (1#5).toNat ∉ [0, 4, 5, 11, 16, 17, 18, 20, 21, 24] ∧
    Receives true (.dfInvalid 31 0 (Vector.replicate 13 1)) .df24
      (longFrame 31 0 (Vector.replicate 13 1)) :=
  ⟨rfl, witness_receives, by decide, by decide, by decide, ⟨rfl, by decide, rfl, rfl⟩⟩

/-- The state before the last sample of a burst. -/
abbrev beforeLast (buf : Payload) : State :=
  { r with run := true, ring := burstRing buf, cursor := 239 }

/-- The last sample completes a window that hits: one that slices to frame D, and one that aborts. -/
theorem witness_sample_step :
    preamble (writeSample r 192 192).ring (writeSample r 192 192).cursor = false ∧
    preamble (writeSample (beforeLast frameD) 192 192).ring 0 = true ∧
    (slice r.cfg (writeSample (beforeLast frameD) 192 192).ring 0 0).1 = .frame fD ∧
    preamble (writeSample (beforeLast noPayload) 192 192).ring 0 = true ∧
    (slice r.cfg (writeSample (beforeLast noPayload) 192 192).ring 0 0).1 = .abort .byte0Zero := by
  decide +kernel

theorem witness_sample_and_stream :
    (op (cmd 3 0xFFFF) = 0x03#8 ∧ r.held = none ∧ (cmd 3 0xFFFF).imm.toNat < 2 ^ 16 ∧ r.run = false) ∧
    (op (cmd 3 0x10000) = 0x03#8 ∧ ¬(cmd 3 0x10000).imm.toNat < 2 ^ 16) ∧
    ((beforeLast frameD).run = true ∧ (beforeLast frameD).held = none) ∧ stalled.held ≠ none := by
  decide

theorem witness_sample_frame : ∃ x t, sampleStep r 192 192 = (x, t) := ⟨_, _, rfl⟩

theorem witness_preamble : ∀ k : Nat, (fun k => (r.ring[(r.cursor.val + k) % 240]'(Nat.mod_lt _
    (by decide))).toNat) k = (r.ring[(r.cursor.val + k) % 240]'(Nat.mod_lt _ (by decide))).toNat :=
  fun _ => rfl

theorem witness_warm_up :
    (∀ j : Nat, r.cursor.val ≤ j → ∀ h : j < 240, r.ring[j] = 0#16) ∧ r.cursor.val < 239 :=
  ⟨fun j _ h => Vector.getElem_replicate h, by decide⟩

/-- The rings of the whole ideal bursts of four buffers: frame D, one with a zero first byte, one with DF 1
and one with a zero tail. -/
theorem witness_ideal_cells :
    r.cfg.prevAvgScope = .frame ∧ 0 < 46781 ∧
    (idealCells (burstRing frameD) 0 46781 0 frameD 7 ∧
      downlinkFormat r.cfg.df24Family frameD[0] = .df11 ∧ (bufFrame 7 frameD).parity ≠ 0#24) ∧
    idealCells (burstRing noPayload) 0 46781 0 noPayload 1 ∧
    (idealCells (burstRing (padded [0x08])) 0 46781 0 (padded [0x08]) 1 ∧
      downlinkFormat r.cfg.df24Family (padded [0x08])[0] = .invalid) ∧
    (idealCells (burstRing (padded [0x20])) 0 46781 0 (padded [0x20]) 7 ∧
      downlinkFormat r.cfg.df24Family (padded [0x20])[0] = .df4 ∧
      (bufFrame 7 (padded [0x20])).parity = 0#24) := by
  unfold idealCells; decide +kernel

/-- Section 2.5, traces S1 (cell 2) and S2: the correction by 20, and by about 20.404. -/
theorem test_correction_traces :
    agcBit (fpFormat .binary64) (fpOfNat (fpFormat .binary64) 300)
      (fpOfNat (fpFormat .binary64) 200) (fpOfNat (fpFormat .binary64) 500) =
      ⟨fpOfNat (fpFormat .binary64) 220, fpOfNat (fpFormat .binary64) 260, true⟩ ∧
    (agcBit (fpFormat .binary64) (fpOfNat (fpFormat .binary64) 500)
      (fpOfNat (fpFormat .binary64) 490) (fpOfNat (fpFormat .binary64) 1000)).s1c =
      fpDecode (fpFormat .binary64) 0x407FE676F31219DC := by decide +kernel

/-- Previous averages below, equal to and above the 495 of the cell (500, 490), a zero cell after a
positive one, and infinity. -/
theorem witness_correction :
    (∀ m ∈ [0, 495, 1000], fpOfNat (fpFormat .binary64) m ≠ .nan ∧
      fpOfNat (fpFormat .binary64) m ≠ .inf true) ∧
    fpGt fpZero (.fin false 0) = false ∧
    (500 + 490) * 2 ^ ((fpFormat .binary64).scale - 1) = 495 * 2 ^ (fpFormat .binary64).scale ∧
    fpGt (fpOfNat (fpFormat .binary64) 495)
      (.fin false ((500 + 490) * 2 ^ ((fpFormat .binary64).scale - 1))) = false ∧
    fpGt (fpOfNat (fpFormat .binary64) 1000)
      (.fin false ((500 + 490) * 2 ^ ((fpFormat .binary64).scale - 1))) = true ∧
    fpGt (fpOfNat (fpFormat .binary64) 1000) (.fin false 0) = true ∧
    (FpVal.inf false ≠ .nan ∧ FpVal.inf false ≠ .inf true) := by decide +kernel

theorem witness_correction_value :
    representable (fpFormat .binary64) (1000 * 2 ^ (fpFormat .binary64).scale) ∧
    fpOfNat (fpFormat .binary64) 1000 = .fin false (1000 * 2 ^ (fpFormat .binary64).scale) :=
  ⟨⟨1000, _, by decide, rfl⟩, by decide +kernel⟩

theorem witness_rounding :
    fpRound (fpFormat .binary32) true (2 ^ 25 + 3) 2 = .fin true (2 ^ 24 + 2) := by decide +kernel

theorem witness_encoding : (Instr.reserved 1 0 ⟨3, 4⟩ 5).wf = true ∧
    (Instr.dfInvalid 31 7 (Vector.replicate 13 0xFF)).wf = true ∧
    (op (cmd 0x08 0)).toNat ∈ [0x08, 0x09, 0x0B, 0x0C, 0x0D] ∧
    frameA[0].toNat / 8 ∉ [0, 4, 5, 11] := by decide

theorem witness_illegal :
    (decode (.command (cmd 0x103 0))).legal = false ∧ r.held = none ∧
    (decode (.command (cmd 0x107 0))).legal = false ∧
    usesOutputPort (decode (.command (cmd 0x107 0))) = false ∧
    0x10 ≤ (op (cmd 0x10 0)).toNat ∧ 0x10 ≤ (op (cmd 0xFFFFFFFF 0)).toNat := by decide

theorem witness_cerr :
    ((Instr.start h0 0).isCommand = true ∧ (Instr.start h0 0).legal = true ∧
      canBeMisused (.start h0 0) = true ∧ stalled.run = true ∧
      usesOutputPort (.start h0 0) = false) ∧
    ((Instr.stop h0 1).isCommand = true ∧ (Instr.stop h0 1).legal = false) := by decide

/-- The worker runs, one sample is offered, and it is the sample engine's turn. -/
abbrev sampled (now : U64) : State :=
  { r with run := true, producer := [0xC0C0], sched := [⟨.sampleEngine, now⟩] }

/-- A turn of `a` at time `now` comes next. -/
abbrev turnOf (s : State) (a : Agent) (now : U64) : State := { s with sched := [⟨a, now⟩] }

theorem witness_steps :
    ((offered r 0 (cmd 0 0)).cfg.wf = true ∧ (offered r 0 (cmd 0 0)).sched = ⟨.host, 0⟩ :: [] ∧
      (offered r 0 (cmd 0 0)).hostQ = cmd 0 0 :: [] ∧
      (offered r 0 (cmd 0 0)).now.toNat ≤ (0#64).toNat ∧
      (offered r 0 (cmd 0 0)).held = none) ∧
    ((sampled 5).cfg.wf = true ∧ (sampled 5).sched = ⟨.sampleEngine, 5⟩ :: [] ∧
      (sampled 5).producer = 0xC0C0 :: [] ∧ (sampled 5).now.toNat ≤ (5#64).toNat ∧
      (sampled 5).run = true ∧ (sampled 5).held = none) := by decide

theorem witness_disabled :
    r.cfg.wf = true ∧ r.sched = [] ∧
    ((turnOf r .sampleEngine 0).sched = ⟨.sampleEngine, 0⟩ :: [] ∧ r.producer = [] ∧ r.run = false) ∧
    (stalled.held ≠ none ∧ (turnOf stalled .sampleEngine 0).sched = ⟨.sampleEngine, 0⟩ :: []) ∧
    ((turnOf r .sweepTimer 9999).sched = ⟨.sweepTimer, 9999⟩ :: [] ∧
      (9999#64).toNat < r.nextSweep.toNat) ∧
    ((turnOf r .host 0).sched = ⟨.host, 0⟩ :: [] ∧ r.hostQ = []) := by decide

theorem witness_stall :
    (stalled.held ≠ none ∧ stalled.cfg.wf = true ∧
      (offered stalled 0 (cmd 3 0)).sched = ⟨.host, 0⟩ :: [] ∧
      (offered stalled 0 (cmd 3 0)).hostQ = cmd 3 0 :: [] ∧
      usesOutputPort (decode (.command (cmd 3 0))) = true) ∧
    usesOutputPort (.inject h0 0 noPayload) = true ∧ (Instr.streamSample 0 0).isCommand = false ∧
    (turnOf stalled .consumer 0).sched = ⟨.consumer, 0⟩ :: [] := by decide

theorem witness_lower_time :
    busy.cfg.wf = true ∧ (199999#64).toNat < busy.now.toNat ∧
    (turnOf busy .rst 199999).sched = ⟨.rst, 199999⟩ :: [] ∧
    ((turnOf busy .sweepTimer 199999).sched = ⟨.sweepTimer, 199999⟩ :: [] ∧
      busy.nextSweep.toNat ≤ (199999#64).toNat) ∧
    ((offered busy 199999 (cmd 3 0)).hostQ = cmd 3 0 :: [] ∧ busy.held = none) ∧
    ((5#64).toNat < ({ stalled with now := 6 } : State).now.toNat ∧ stalled.held ≠ none ∧
      (offered stalled 5 (cmd 0 0)).hostQ = cmd 0 0 :: [] ∧
      usesOutputPort (decode (.command (cmd 0 0))) = false) ∧
    ((4#64).toNat < ({ sampled 4 with now := 5 } : State).now.toNat ∧ (sampled 4).run = true ∧
      (sampled 4).held = none ∧ (sampled 4).producer ≠ []) := by decide

theorem witness_threshold_zero :
    ({ Config.reference with thresholdHigh := 0 } : Config).thresholdHigh = 0#32 := by decide

theorem witness_timer :
    busy.cfg.wf = true ∧ (turnOf busy .sweepTimer 200000).sched = ⟨.sweepTimer, 200000⟩ :: [] ∧
    busy.now.toNat ≤ (200000#64).toNat ∧ busy.nextSweep.toNat ≤ (200000#64).toNat ∧
    busy.nextSweep.toNat + 10 * busy.cfg.ticksPerSecond < 2 ^ 64 ∧
    KeyMap.wf busy.trusted = true ∧ KeyMap.wf busy.candidate = true ∧
    (r.now.toNat ≤ (9999#64).toNat ∧ (9999#64).toNat < r.nextSweep.toNat) := by decide

theorem witness_reset_step :
    busy.cfg.wf = true ∧ (turnOf busy .rst 200000).sched = ⟨.rst, 200000⟩ :: [] ∧
    busy.now.toNat ≤ (200000#64).toNat ∧
    (200000#64).toNat + 10 * busy.cfg.ticksPerSecond < 2 ^ 64 := by decide

theorem witness_frames :
    (∃ t, exec (.nop h0 0) r = .next t) ∧ onlyAnswers (.nop h0 0) = true ∧
    (∃ t, exec (.sweep h0 0) busy = .next t) ∧ (Instr.sweep h0 0).isCommand = true ∧
    (∃ t, exec iE r = .next t) ∧ (∃ t, exec (.inject ⟨0, 7⟩ 0 frameD) r = .next t) :=
  ⟨⟨_, rfl⟩, rfl, ⟨_, rfl⟩, rfl, ⟨_, rfl⟩, ⟨_, rfl⟩⟩

theorem busy_mapsOk : busy.mapsOk := by
  refine ⟨by decide, by decide, fun a h => ?_⟩
  simp only [KeyMap.has, KeyMap.find_cons, KeyMap.find_nil] at h
  obtain ⟨h1, h2⟩ := h
  by_cases h7 : a = 7
  · subst h7
    exact absurd h1 (by decide)
  · exact absurd h2 (by rw [if_neg h7]; decide)

/-- A state with entries in both maps meets the invariants on the maps, and steps. -/
theorem witness_map_invariants :
    busy.mapsOk ∧ busy.countsOk ∧ busy.timesOk ∧ busy.capacityOk ∧
    ∃ t, step busy = .next t := by
  refine ⟨busy_mapsOk, ?_, ⟨?_, ?_⟩, ⟨fun c h => ?_, fun c h => ?_⟩, ⟨_, rfl⟩⟩
  · intro e he
    obtain rfl : e = (7, ⟨150000, 1⟩) := by simpa using he
    decide
  · intro e he
    rcases List.mem_cons.mp he with rfl | he
    · decide
    · obtain rfl : e = (9, 100000) := by simpa using he
      decide
  · intro e he
    obtain rfl : e = (7, ⟨150000, 1⟩) := by simpa using he
    decide
  · cases h
  · cases h

/-- A state with a held record meets the invariant on the output, and steps. -/
theorem witness_output_invariant : stalled.outOk ∧ ∃ t, step stalled = .next t := by
  refine ⟨⟨?_, ?_⟩, ⟨_, rfl⟩⟩
  · intro x hx
    obtain rfl : x = recD := by simpa using hx
    exact ⟨.inl rfl, rfl, by decide⟩
  · intro x hx
    obtain rfl : recD = x := by simpa using hx
    rfl

theorem witness_sticky :
    ({ busy with misuse := true, illegal := true, ovf := true } : State).misuse = true ∧
    busy.sched = [] := by decide

/-- A sweep that takes the stale key 5 out of Trusted. -/
theorem witness_trusted_leaves :
    KeyMap.find (offered busy 200000 (cmd 6 0)).trusted 5 = some 10000 ∧
    field (step (offered busy 200000 (cmd 6 0))) (fun t => KeyMap.find t.trusted 5) = some none := by
  decide +kernel

end Sys2Proof.Tests
end

section
/-!
PROOFS of the scope family (00_scope.md): the rounding of R13 answers a nearest value of the format, and
the refusal of R7.
-/

namespace Sys2Proof.Machine

open Sys2Proof.Claims

/-! ### Nearest integers -/

/-- `divNearest` rounds the quotient down or up, and up only from the half on. -/
theorem divNearest_cases (a d : Nat) :
    (divNearest a d = a / d ∧ 2 * (a % d) ≤ d) ∨ (divNearest a d = a / d + 1 ∧ d ≤ 2 * (a % d)) := by
  unfold divNearest
  by_cases hlt : 2 * (a % d) < d
  · simp [hlt, hlt.le]
  · by_cases hgt : d < 2 * (a % d)
    · simp [hlt, hgt, hgt.le]
    · have htie : 2 * (a % d) = d := by omega
      by_cases heven : a / d % 2 = 0 <;> simp [htie, heven]

theorem divNearest_le_succ (a d : Nat) : divNearest a d ≤ a / d + 1 := by
  rcases divNearest_cases a d with ⟨hn, -⟩ | ⟨hn, -⟩ <;> omega

/-- The rounding error is at most one half. -/
theorem abs_div_sub_divNearest_le_half (a : Nat) {d : Nat} (hd : 0 < d) :
    |(a : ℚ) / d - divNearest a d| ≤ 1 / 2 := by
  have hd' : (0 : ℚ) < d := by exact_mod_cast hd
  have hsplit : (d : ℚ) * (a / d : Nat) + (a % d : Nat) = a := by exact_mod_cast Nat.div_add_mod a d
  have hrem : (0 : ℚ) ≤ (a % d : Nat) := Nat.cast_nonneg _
  rw [div_sub' hd'.ne', abs_div, abs_of_pos hd', div_le_iff₀ hd', abs_le]
  rcases divNearest_cases a d with ⟨hn, hr⟩ | ⟨hn, hr⟩
  · have hr' : 2 * ((a % d : Nat) : ℚ) ≤ d := by exact_mod_cast hr
    rw [hn]
    constructor <;> linarith
  · have hr' : (d : ℚ) ≤ 2 * (a % d : Nat) := by exact_mod_cast hr
    have hlt : ((a % d : Nat) : ℚ) < d := by exact_mod_cast Nat.mod_lt a hd
    rw [hn, Nat.cast_succ, mul_add_one]
    constructor <;> linarith

/-- An integer within one half of `x` is as near to `x` as any other. -/
theorem abs_sub_le_abs_sub_of_le_half {x : ℚ} {n : Nat} (hn : |x - n| ≤ 1 / 2) (k : Nat) :
    |x - n| ≤ |x - k| := by
  rcases eq_or_ne n k with rfl | hne
  · exact le_rfl
  · have hgap : (1 : ℚ) ≤ |(k : ℚ) - n| := by
      exact_mod_cast Int.one_le_abs (sub_ne_zero.mpr (Int.ofNat_inj.not.mpr hne.symm))
    have htri : |(k : ℚ) - n| ≤ |x - n| + |x - k| := by
      simpa only [abs_sub_comm (k : ℚ) x, add_comm] using abs_sub_le (k : ℚ) x n
    linarith

/-- Rounding `a / d` to a multiple of `p` answers a nearest multiple of `p`. -/
theorem divNearest_mul_nearest (a k : Nat) {d p : Nat} (hd : 0 < d) (hp : 0 < p) :
    |(a : ℚ) / d - (divNearest a (d * p) * p : Nat)| ≤ |(a : ℚ) / d - (k * p : Nat)| := by
  have hp' : (0 : ℚ) < p := by exact_mod_cast hp
  have hscale (n : Nat) : |(a : ℚ) / d - (n * p : Nat)| = |(a : ℚ) / (d * p : Nat) - n| * p := by
    conv_rhs => rw [← abs_of_pos hp', ← abs_mul, sub_mul, Nat.cast_mul d p, ← div_div,
      div_mul_cancel₀ _ hp'.ne']
    rw [Nat.cast_mul]
  rw [hscale, hscale]
  exact mul_le_mul_of_nonneg_right (abs_sub_le_abs_sub_of_le_half
    (abs_div_sub_divNearest_le_half a (Nat.mul_pos hd hp)) k) hp'.le

/-! ### The values of a format -/

/-- Without its `shift` low bits a number has at most `fracBits + 1` bits. -/
theorem FpFormat.div_two_pow_shift_lt (F : FpFormat) (q : Nat) :
    q / 2 ^ F.shift q < 2 ^ (F.fracBits + 1) := by
  rw [Nat.div_lt_iff_lt_mul (Nat.two_pow_pos _), ← pow_add]
  refine Nat.lt_log2_self.trans_le (Nat.pow_le_pow_right Nat.two_pos ?_)
  unfold FpFormat.shift
  omega

/-- Where bits are dropped, `fracBits + 1` of them are left. -/
theorem FpFormat.two_pow_le_of_shift_pos (F : FpFormat) {q : Nat} (ht : 0 < F.shift q) :
    2 ^ (F.fracBits + F.shift q) ≤ q := by
  unfold FpFormat.shift at ht ⊢
  have hq : q ≠ 0 := by rintro rfl; simp at ht
  rw [Nat.add_sub_cancel' (by omega)]
  exact Nat.log2_self_le hq

/-- A significand that rounding has carried to `2 ^ (fracBits + 1)` is still one of the format. -/
theorem representable_mul_two_pow (F : FpFormat) {k : Nat} (e : Nat) (hk : k ≤ 2 ^ (F.fracBits + 1)) :
    representable F (k * 2 ^ e) := by
  rcases hk.lt_or_eq with hlt | rfl
  · exact ⟨k, e, hlt, rfl⟩
  · exact ⟨1, F.fracBits + 1 + e, Nat.one_lt_two_pow (by omega), by rw [one_mul, ← pow_add]⟩

/-- A value of the format is a multiple of `2 ^ t`, or it lies below `2 ^ (fracBits + t)`, from where
on all values of the format are such multiples. -/
theorem representable_cases {F : FpFormat} {m : Nat} (hm : representable F m) (t : Nat) :
    (∃ k, m = k * 2 ^ t) ∨ (0 < t ∧ m < 2 ^ (F.fracBits + t)) := by
  obtain ⟨k, e, hk, rfl⟩ := hm
  rcases le_or_gt t e with hte | het
  · exact .inl ⟨k * 2 ^ (e - t), by rw [mul_assoc, ← pow_add, Nat.sub_add_cancel hte]⟩
  · refine .inr ⟨by omega, ?_⟩
    calc k * 2 ^ e < 2 ^ (F.fracBits + 1) * 2 ^ e := Nat.mul_lt_mul_of_pos_right hk (Nat.two_pow_pos e)
      _ = 2 ^ (F.fracBits + 1 + e) := (pow_add ..).symm
      _ ≤ 2 ^ (F.fracBits + t) := Nat.pow_le_pow_right Nat.two_pos (by omega)

/-! ### Rounding (R13) -/

/-- The number of units `fpRound` compares with the limit. -/
def roundedUnits (F : FpFormat) (a d : Nat) : Nat :=
  divNearest a (d * 2 ^ F.shift (a / d)) * 2 ^ F.shift (a / d)

theorem fpRound_eq (F : FpFormat) (neg : Bool) (a d : Nat) :
    fpRound F neg a d =
      if F.limit ≤ roundedUnits F a d then .inf neg else .fin neg (roundedUnits F a d) := rfl

theorem fpRound_eq_fin_iff (F : FpFormat) (neg neg' : Bool) (a d m : Nat) :
    fpRound F neg a d = .fin neg' m ↔ neg = neg' ∧ roundedUnits F a d = m ∧ m < F.limit := by
  rw [fpRound_eq]
  by_cases hlimit : F.limit ≤ roundedUnits F a d
  · rw [if_pos hlimit]
    simp only [reduceCtorEq, false_iff]
    omega
  · rw [if_neg hlimit, FpVal.fin.injEq]
    exact and_congr_right fun _ => ⟨fun hm => ⟨hm, by omega⟩, And.left⟩

theorem roundedUnits_representable (F : FpFormat) (a d : Nat) :
    representable F (roundedUnits F a d) := by
  refine representable_mul_two_pow F _ ((divNearest_le_succ ..).trans ?_)
  rw [← Nat.div_div_eq_div_mul]
  exact F.div_two_pow_shift_lt (a / d)

/-- Among the multiples of `2 ^ shift` this is `divNearest_mul_nearest`. Any other value of the format
lies below `2 ^ (fracBits + shift)`, which is such a multiple, at most `a / d`, and so nearer to it. -/
theorem roundedUnits_nearest (F : FpFormat) (a : Nat) {d m' : Nat} (hd : 0 < d)
    (hm' : representable F m') :
    |(a : ℚ) / d - roundedUnits F a d| ≤ |(a : ℚ) / d - m'| := by
  have hnearest (k : Nat) := divNearest_mul_nearest a k hd (Nat.two_pow_pos (F.shift (a / d)))
  rcases representable_cases hm' (F.shift (a / d)) with ⟨k, rfl⟩ | ⟨ht, hlt⟩
  · exact hnearest k
  · have hstart : ((2 ^ F.fracBits * 2 ^ F.shift (a / d) : Nat) : ℚ) ≤ (a : ℚ) / d := by
      rw [← pow_add]
      exact (Nat.cast_le.mpr (F.two_pow_le_of_shift_pos ht)).trans Nat.cast_div_le
    have hbelow : (m' : ℚ) ≤ (2 ^ F.fracBits * 2 ^ F.shift (a / d) : Nat) := by
      rw [← pow_add]
      exact Nat.cast_le.mpr hlt.le
    refine (hnearest (2 ^ F.fracBits)).trans ?_
    rw [abs_of_nonneg (sub_nonneg.mpr hstart), abs_of_nonneg (sub_nonneg.mpr (hbelow.trans hstart))]
    exact sub_le_sub_left hbelow _

/-- Settles O35. The lemmas above hold in every format, so no fact of binary64 or binary32 is used. -/
theorem roundingIsToNearest : Obligations.RoundingIsToNearest := by
  unfold Obligations.RoundingIsToNearest
  intro fp neg neg' a d m hd hround
  obtain ⟨rfl, rfl, hlimit⟩ := (fpRound_eq_fin_iff ..).mp hround
  exact ⟨rfl, hlimit, roundedUnits_representable .., fun _ hm' => roundedUnits_nearest _ _ hd hm'⟩

/-! ### Threshold 0 (R7) -/

theorem config_wf_eq_false_iff (c : Config) :
    c.wf = false ↔ c.thresholdLow = 0#32 ∨ c.thresholdMedium = 0#32 ∨ c.thresholdHigh = 0#32 := by
  simp [Config.wf, or_assoc, imp_iff_not_or]

/-- The counterpart of `step_cases` for a configuration that R7 excludes. -/
theorem step_of_wf_eq_false {s : State} (hw : s.cfg.wf = false) :
    step s = .refused .thresholdZero := by
  unfold step
  rw [if_neg (by simp [hw])]

/-- Settles O46. -/
theorem thresholdZeroIsRefused : Obligations.ThresholdZeroIsRefused := by
  unfold Obligations.ThresholdZeroIsRefused
  intro s hzero
  exact step_of_wf_eq_false ((config_wf_eq_false_iff s.cfg).mpr hzero)

end Sys2Proof.Machine
end

section
/-!
PROOFS of the state family (10_state.md). An instruction, a timer step and the consumer's acceptance are
brought to one relation, `Effect`, that says what they can do to the maps, the output and the time; each
invariant is shown to survive an `Effect`, and `step_keeps` carries it from there to every step.
-/

namespace Sys2Proof.Machine

open Sys2Proof.Claims

/-! ### Finite maps -/

section Maps

variable {β : Type}

theorem KeyMap.has_iff_mem (m : KeyMap β) (k : U24) :
    KeyMap.has m k = true ↔ ∃ v, (k, v) ∈ m := by
  induction m with
  | nil => simp
  | cons e t ih =>
    obtain ⟨k', v'⟩ := e
    by_cases hk : k = k'
    · subst hk
      exact iff_of_true (by simp [KeyMap.has]) ⟨v', List.mem_cons_self⟩
    · simpa [KeyMap.has, hk] using ih

theorem KeyMap.has_of_has_put (m : KeyMap β) {k a : U24} {v : β}
    (h : KeyMap.has (KeyMap.put m k v) a = true) : a = k ∨ KeyMap.has m a = true := by
  by_cases ha : a = k
  · exact .inl ha
  · exact .inr (KeyMap.has_put_ne m v ha ▸ h)

theorem KeyMap.has_of_has_remove (m : KeyMap β) {k a : U24} (hw : KeyMap.wf m = true)
    (h : KeyMap.has (KeyMap.remove m k) a = true) : a ≠ k ∧ KeyMap.has m a = true := by
  have hne : a ≠ k := by
    rintro rfl
    simp [KeyMap.has, KeyMap.find_remove_self m a hw] at h
  exact ⟨hne, KeyMap.has_remove_ne m hne ▸ h⟩

theorem KeyMap.has_of_has_filter (m : KeyMap β) (p : U24 × β → Bool) {a : U24}
    (h : KeyMap.has (m.filter p) a = true) : KeyMap.has m a = true := by
  obtain ⟨v, hv⟩ := (KeyMap.has_iff_mem _ a).mp h
  exact (KeyMap.has_iff_mem m a).mpr ⟨v, (List.mem_filter.mp hv).1⟩

/-- The guard of R655: an entry is replaced, or added where there is room. -/
theorem KeyMap.length_put_le_capacity (m : KeyMap β) (k : U24) (v : β) {capacity : Option Nat}
    (hw : KeyMap.wf m = true)
    (hroom : KeyMap.has m k = true ∨ hasRoom capacity m.length = true)
    (hm : ∀ c, capacity = some c → m.length ≤ c) :
    ∀ c, capacity = some c → (KeyMap.put m k v).length ≤ c := by
  intro c hc
  cases hk : KeyMap.has m k with
  | true => exact KeyMap.length_put_present m k v hw hk ▸ hm c hc
  | false =>
    have hlt := (hasRoom_iff _ _).mp (hroom.resolve_left (by simp [hk])) c hc
    exact KeyMap.length_put_absent m k v hk ▸ hlt

end Maps

/-! ### What an instruction can do to the maps -/

/-- All that a received frame or a sweep can make of the two maps (R651, R652, R655, R656). -/
inductive MapChange (cfg : Config) (now : U64) (T : KeyMap U64) (C : KeyMap CandidateEntry) :
    KeyMap U64 → KeyMap CandidateEntry → Prop where
  /-- The frame or the command is not about the maps, or there was no room for a candidate. -/
  | same : MapChange cfg now T C T C
  /-- A trusted address is seen again. -/
  | refreshed (a : U24) (ha : KeyMap.has T a = true) :
      MapChange cfg now T C (KeyMap.put T a now) C
  /-- An address becomes trusted. -/
  | trusted (a : U24)
      (hroom : KeyMap.has T a = true ∨ hasRoom cfg.trustedCapacity T.length = true) :
      MapChange cfg now T C (KeyMap.put T a now) (KeyMap.remove C a)
  /-- An address is to become trusted and there is no room for it. -/
  | dropped (a : U24) : MapChange cfg now T C T (KeyMap.remove C a)
  /-- A candidate is counted. -/
  | counted (a : U24) (n : U32) (hT : KeyMap.has T a = false) (hn : 1 ≤ n.toNat)
      (hroom : KeyMap.has C a = true ∨ hasRoom cfg.candidateCapacity C.length = true) :
      MapChange cfg now T C T (KeyMap.put C a ⟨now, n⟩)
  /-- Entries are swept. -/
  | swept (p : U24 × U64 → Bool) (q : U24 × CandidateEntry → Bool) :
      MapChange cfg now T C (T.filter p) (C.filter q)

section MapChange

variable {cfg : Config} {now : U64} {T T' : KeyMap U64} {C C' : KeyMap CandidateEntry}

theorem MapChange.wf_trusted (h : MapChange cfg now T C T' C') (hT : KeyMap.wf T = true) :
    KeyMap.wf T' = true := by
  cases h with
  | same | dropped | counted => exact hT
  | refreshed a | trusted a => exact KeyMap.wf_put T a now hT
  | swept p => exact KeyMap.wf_filter T p hT

theorem MapChange.wf_candidate (h : MapChange cfg now T C T' C') (hC : KeyMap.wf C = true) :
    KeyMap.wf C' = true := by
  cases h with
  | same | refreshed => exact hC
  | trusted a | dropped a => exact KeyMap.wf_remove C a hC
  | counted a n => exact KeyMap.wf_put C a _ hC
  | swept p q => exact KeyMap.wf_filter C q hC

/-- R122: the one key an instruction adds to a map is not left in the other. -/
theorem MapChange.disjoint (h : MapChange cfg now T C T' C') (hC : KeyMap.wf C = true)
    (hd : ∀ a, ¬(KeyMap.has T a = true ∧ KeyMap.has C a = true)) :
    ∀ a, ¬(KeyMap.has T' a = true ∧ KeyMap.has C' a = true) := by
  rintro b ⟨hbT, hbC⟩
  cases h with
  | same => exact hd b ⟨hbT, hbC⟩
  | refreshed a ha =>
    rcases KeyMap.has_of_has_put T hbT with rfl | hbT
    · exact hd b ⟨ha, hbC⟩
    · exact hd b ⟨hbT, hbC⟩
  | trusted a =>
    obtain ⟨hne, hbC⟩ := KeyMap.has_of_has_remove C hC hbC
    exact hd b ⟨(KeyMap.has_of_has_put T hbT).resolve_left hne, hbC⟩
  | dropped a => exact hd b ⟨hbT, (KeyMap.has_of_has_remove C hC hbC).2⟩
  | counted a n hT =>
    rcases KeyMap.has_of_has_put C hbC with rfl | hbC
    · simp [hT] at hbT
    · exact hd b ⟨hbT, hbC⟩
  | swept p q => exact hd b ⟨KeyMap.has_of_has_filter T p hbT, KeyMap.has_of_has_filter C q hbC⟩

/-- What holds of every Trusted value and of the time input holds of every Trusted value afterwards. -/
theorem MapChange.forall_trusted {Q : U64 → Prop} (h : MapChange cfg now T C T' C') (hnow : Q now)
    (hT : ∀ e ∈ T, Q e.2) : ∀ e ∈ T', Q e.2 := by
  intro e he
  cases h with
  | same | dropped | counted => exact hT e he
  | refreshed a | trusted a =>
    rcases KeyMap.mem_put T a now he with rfl | he
    · exact hnow
    · exact hT e he
  | swept p => exact hT e (List.mem_filter.mp he).1

/-- The same for the Candidate records, a new one having the time input and a count of at least 1. -/
theorem MapChange.forall_candidate {Q : CandidateEntry → Prop} (h : MapChange cfg now T C T' C')
    (hnew : ∀ n : U32, 1 ≤ n.toNat → Q ⟨now, n⟩) (hC : ∀ e ∈ C, Q e.2) : ∀ e ∈ C', Q e.2 := by
  intro e he
  cases h with
  | same | refreshed => exact hC e he
  | trusted a | dropped a => exact hC e (KeyMap.mem_remove C a he)
  | counted a n hT hn =>
    rcases KeyMap.mem_put C a _ he with rfl | he
    · exact hnew n hn
    · exact hC e he
  | swept p q => exact hC e (List.mem_filter.mp he).1

theorem MapChange.trusted_le_capacity (h : MapChange cfg now T C T' C') (hw : KeyMap.wf T = true)
    (hT : ∀ c, cfg.trustedCapacity = some c → T.length ≤ c) :
    ∀ c, cfg.trustedCapacity = some c → T'.length ≤ c := by
  cases h with
  | same | dropped | counted => exact hT
  | refreshed a ha => exact KeyMap.length_put_le_capacity T a now hw (.inl ha) hT
  | trusted a hroom => exact KeyMap.length_put_le_capacity T a now hw hroom hT
  | swept p => exact fun c hc => (List.length_filter_le p T).trans (hT c hc)

theorem MapChange.candidate_le_capacity (h : MapChange cfg now T C T' C') (hw : KeyMap.wf C = true)
    (hC : ∀ c, cfg.candidateCapacity = some c → C.length ≤ c) :
    ∀ c, cfg.candidateCapacity = some c → C'.length ≤ c := by
  cases h with
  | same | refreshed => exact hC
  | trusted a | dropped a => exact fun c hc => (KeyMap.length_remove_le C a).trans (hC c hc)
  | counted a n hT hn hroom => exact KeyMap.length_put_le_capacity C a _ hw hroom hC
  | swept p q => exact fun c hc => (List.length_filter_le q C).trans (hC c hc)

end MapChange

/-! ### What an instruction can do to the output -/

/-- All that a step other than reset can make of the emitted sequence and the port (R706, R707, R810). -/
inductive PortChange (out : List OutRecord) (held : Option OutRecord) :
    List OutRecord → Option OutRecord → Prop where
  | same : PortChange out held out held
  | emitted (r : OutRecord) (hr : r.shapeOk) : PortChange out held (out ++ [r]) (some r)
  | accepted : PortChange out held out none

/-- What a step other than reset does, as far as the maps, the output and the time are concerned. -/
structure Effect (s t : State) : Prop where
  cfg : t.cfg = s.cfg
  now : t.now = s.now
  maps : MapChange s.cfg s.now s.trusted s.candidate t.trusted t.candidate
  port : PortChange s.out s.held t.out t.held

/-- An effect that raises no error. -/
structure CleanEffect (s t : State) : Prop extends Effect s t where
  misuse : t.misuse = s.misuse
  illegal : t.illegal = s.illegal

theorem CleanEffect.refl (s : State) : CleanEffect s s := ⟨⟨rfl, rfl, .same, .same⟩, rfl, rfl⟩

/-! ### Whole frames and the shape of a record (R345) -/

theorem DownlinkFormat.lenBytes_of_ne_invalid {d : DownlinkFormat} (hd : d ≠ .invalid) :
    d.lenBytes = 7 ∨ d.lenBytes = 14 := by
  cases d with
  | invalid => exact absurd rfl hd
  | df0 | df4 | df5 | df11 => exact .inl rfl
  | df16 | df17 | df18 | df20 | df21 | df24 => exact .inr rfl

/-- INVALID has the value 0, which is DF 0's. -/
theorem DownlinkFormat.value_mem_knownDf (d : DownlinkFormat) : d.value ∈ knownDf := by
  cases d <;> decide

theorem wholeFrame_shortFrame (df : BitVec 5) (low3 : BitVec 3) (r : Vector Byte 6) :
    wholeFrame (shortFrame df low3 r) := ⟨.inl rfl, by simp [shortFrame]⟩

theorem wholeFrame_longFrame (df : BitVec 5) (low3 : BitVec 3) (r : Vector Byte 13) :
    wholeFrame (longFrame df low3 r) := ⟨.inr rfl, by simp [longFrame]⟩

theorem wholeFrame_bufFrame {n : Nat} (hn : n = 7 ∨ n = 14) (buf : Vector Byte 14) :
    wholeFrame (bufFrame n buf) := by
  refine ⟨hn, ?_⟩
  have hle : n ≤ 14 := by omega
  simpa [bufFrame] using hle

theorem wholeFrame_commandFrame {len : BitVec 4} (hlen : len.toNat = 7 ∨ len.toNat = 14)
    (p : Payload) : wholeFrame (commandFrame len p) := wholeFrame_bufFrame hlen p

theorem wholeFrame_of_sliceWindow {s : State} {f : Frame} (h : (sliceWindow s).1 = .frame f) :
    wholeFrame f := by
  have hv : (slice s.cfg s.ring s.cursor s.prevAvg).1 = .frame f := h
  rcases slice_cases s.cfg s.ring s.cursor s.prevAvg _ rfl _ rfl _ rfl with
    ⟨-, hs⟩ | ⟨-, -, hs⟩ | ⟨-, -, -, hs⟩ | ⟨-, hd, -, hs⟩
  case inr.inr.inr =>
    rw [hs, SliceVerdict.frame.injEq] at hv
    exact hv ▸ wholeFrame_bufFrame (DownlinkFormat.lenBytes_of_ne_invalid hd) _
  all_goals simp [hs] at hv

/-- The repair of R505 flips a bit and moves none. -/
theorem piRepair_length {cfg : Config} {d : DownlinkFormat} {f g : Frame}
    (h : piRepair cfg d f = some g) : g.bytes.length = f.bytes.length := by
  unfold piRepair at h
  split at h
  · cases h
    rfl
  · split at h
    · cases h
    · split at h
      · cases h
      · cases h
        simp [Frame.flip]

theorem emitPayload_length (cfg : Config) (d : DownlinkFormat) (f : Frame) :
    (emitPayload cfg d f).length = f.bytes.length := by
  unfold emitPayload
  split
  · split
    · exact piRepair_length ‹_›
    · rfl
  · rfl

theorem frameRecord_shapeOk (cfg : Config) (d : DownlinkFormat) {f : Frame} (a : U24)
    (hf : wholeFrame f) : (frameRecord cfg d f a).shapeOk := by
  obtain ⟨hlen, hbytes⟩ := hf
  exact ⟨hlen, (emitPayload_length cfg d f).trans hbytes, d.value_mem_knownDf⟩

/-! ### The effect of a frame -/

theorem validatePi_effect (s : State) (d : DownlinkFormat) {f : Frame} (hf : wholeFrame f) :
    CleanEffect s (validatePi s d f).2 := by
  rcases validatePi_cases s d f with ⟨-, h⟩ | ⟨-, -, h⟩ | ⟨-, -, h⟩
  · rw [h]
    exact .refl s
  · rw [h]
    exact .refl s
  · have hrec (t : State) := frameRecord_shapeOk t.cfg d (getIcao s.cfg f) hf
    rw [h]
    rcases putTrusted_cases s (getIcao s.cfg f) with ⟨hroom, hput⟩ | ⟨-, -, hput⟩
    · rw [hput]
      exact ⟨⟨rfl, rfl, .trusted _ hroom, .emitted _ (hrec _)⟩, rfl, rfl⟩
    · rw [hput]
      exact ⟨⟨rfl, rfl, .dropped _, .emitted _ (hrec _)⟩, rfl, rfl⟩

theorem validateAp_effect (s : State) (d : DownlinkFormat) {f : Frame} (hf : wholeFrame f) :
    CleanEffect s (validateAp s d f).2 := by
  have hrec (t : State) := frameRecord_shapeOk t.cfg d (syndrome24 f) hf
  rcases validateAp_cases s d f with ⟨hT, h⟩ | ⟨-, -, h⟩ | ⟨hT, hlt, hC, h⟩ | ⟨hT, -, -, h⟩
  · rw [h]
    exact ⟨⟨rfl, rfl, .refreshed _ hT, .emitted _ (hrec _)⟩, rfl, rfl⟩
  · rw [h]
    rcases putTrusted_cases (dropCandidate s (syndrome24 f)) (syndrome24 f) with
      ⟨hroom, hput⟩ | ⟨-, -, hput⟩
    · rw [hput]
      exact ⟨⟨rfl, rfl, .trusted _ hroom, .emitted _ (hrec _)⟩, rfl, rfl⟩
    · rw [hput]
      exact ⟨⟨rfl, rfl, .dropped _, .emitted _ (hrec _)⟩, rfl, rfl⟩
  · have hcount : 1 ≤ (BitVec.ofNat 32 (sightings s (syndrome24 f) + 1)).toNat := by
      rw [BitVec.toNat_ofNat, Nat.mod_eq_of_lt (hlt.trans (BitVec.isLt _))]
      omega
    rw [h]
    exact ⟨⟨rfl, rfl, .counted _ _ hT hcount (.inl hC), .same⟩, rfl, rfl⟩
  · rw [h]
    rcases putCandidate_cases s (syndrome24 f) ⟨s.now, 1#32⟩ with ⟨hroom, hput⟩ | ⟨-, hput⟩
    · rw [hput]
      exact ⟨⟨rfl, rfl, .counted _ _ hT le_rfl (.inr hroom), .same⟩, rfl, rfl⟩
    · rw [hput]
      exact ⟨⟨rfl, rfl, .same, .same⟩, rfl, rfl⟩

theorem validate_effect (s : State) {f : Frame} (hf : wholeFrame f) :
    CleanEffect s (validate s f).2 := by
  rw [validate_eq]
  split
  · exact validatePi_effect s _ hf
  · exact validateAp_effect s _ hf

theorem receiveFrame_effect (s : State) {f : Frame} (hf : wholeFrame f) :
    CleanEffect s (receiveFrame s f).2 := by
  rcases receiveFrame_cases s f with ⟨-, h⟩ | ⟨-, -, h⟩ | ⟨-, -, -, h⟩ | ⟨-, -, -, h⟩
  case inr.inr.inr => exact h ▸ validate_effect s hf
  all_goals exact h ▸ .refl s

theorem injectFrame_effect (s : State) (len : BitVec 4) (p : Payload) :
    CleanEffect s (injectFrame s len p).2 := by
  rcases injectFrame_cases s len p with
    ⟨-, h⟩ | ⟨-, -, h⟩ | ⟨-, -, -, h⟩ | ⟨-, -, -, -, h⟩ | ⟨-, hd, hlen, -, h⟩
  case inr.inr.inr.inr =>
    have hwhole := wholeFrame_commandFrame (hlen ▸ DownlinkFormat.lenBytes_of_ne_invalid hd) p
    exact h ▸ validate_effect s hwhole
  all_goals exact h ▸ .refl s

/-- The ring, the cursor and the slicer's registers are no part of an effect, so the step has that of
the frame it ends with. -/
theorem sampleStep_effect (s : State) (i q : Byte) : CleanEffect s (sampleStep s i q).2 := by
  rcases sampleStep_cases s i q with ⟨-, h⟩ | ⟨-, reason, -, h⟩ | ⟨-, f, hf, h⟩
  · rw [h]
    exact ⟨⟨rfl, rfl, .same, .same⟩, rfl, rfl⟩
  · rw [h]
    exact ⟨⟨rfl, rfl, .same, .same⟩, rfl, rfl⟩
  · rw [h]
    obtain ⟨⟨hcfg, hnow, hmaps, hport⟩, hmisuse, hillegal⟩ :=
      validate_effect (sliceWindow (writeSample s i q)).2 (wholeFrame_of_sliceWindow hf)
    exact ⟨⟨hcfg, hnow, hmaps, hport⟩, hmisuse, hillegal⟩

theorem acceptRecord_effect (s : State) : Effect s (acceptRecord s) := ⟨rfl, rfl, .same, .accepted⟩

theorem timerStep_effect (s : State) : Effect s (timerStep s) := ⟨rfl, rfl, .swept _ _, .same⟩

theorem sweepMaps_effect (s : State) : CleanEffect s (sweepMaps s) :=
  ⟨⟨rfl, rfl, .swept _ _, .same⟩, rfl, rfl⟩

/-! ### How a command ends (R753) -/

theorem eq_not_of_eq_false_iff {a b : Bool} (h : a = false ↔ b = true) : a = !b := by
  cases b with
  | false => exact Bool.eq_true_of_not_eq_false fun ha => Bool.false_ne_true (h.mp ha)
  | true => exact h.mpr rfl

theorem badPlain_eq_not (h : Hdr) (imm : U32) : badPlain h imm = !legalPlain h imm :=
  eq_not_of_eq_false_iff (badPlain_eq_false h imm)

theorem badLenForm_eq_not (h : Hdr) (imm : U32) : badLenForm h imm = !legalLen h imm :=
  eq_not_of_eq_false_iff (badLenForm_eq_false h imm)

theorem badImm_eq_not (h : Hdr) (n : Nat) (rsv : BitVec n) : badImm h n rsv = !legalImm h n rsv :=
  eq_not_of_eq_false_iff (badImm_eq_false h n rsv)

/-- The code 3 alone names no level (R754). -/
theorem levelOfCode_isSome (c : BitVec 2) : (levelOfCode c).isSome = (c != 3#2) := by
  decide +revert

/-- The indices 0 to 5 alone name a word (R758). -/
theorem readWord_isSome (s : State) (index : Byte) :
    (readWord s index).isSome = decide (index.toNat ≤ 5) := by
  unfold readWord
  split
  case h_7 h0 h1 h2 h3 h4 h5 =>
    have hgt : 5 < index.toNat := by
      simp only [imp_false] at h0 h1 h2 h3 h4 h5
      omega
    simp [hgt]
  all_goals simp [*]

/-- The command `i` ends in `s` by the checks of R753 in their order, and where it passes them has a
clean effect: none at all where it only answers. -/
def EndsByChecks (i : Instr) (s : State) : Prop :=
  ∃ (u : State) (v : U32),
    exec i s = runCommand (!i.legal) (canBeMisused i && s.run) (respond u v) s ∧
    CleanEffect s u ∧ (onlyAnswers i = true → u = s)

section EndsByChecks

variable {i : Instr} {s u : State} {bad : Bool} {v : U32}

theorem EndsByChecks.of_effect (ha : onlyAnswers i = false)
    (hx : exec i s = runCommand bad (canBeMisused i && s.run) (respond u v) s)
    (hbad : bad = !i.legal) (hu : CleanEffect s u) : EndsByChecks i s :=
  ⟨u, v, hbad ▸ hx, hu, fun h => absurd (ha.symm.trans h) Bool.false_ne_true⟩

theorem EndsByChecks.of_answer
    (hx : exec i s = runCommand bad (canBeMisused i && s.run) (respond s v) s)
    (hbad : bad = !i.legal) : EndsByChecks i s :=
  ⟨s, v, hbad ▸ hx, .refl s, fun _ => rfl⟩

theorem EndsByChecks.of_illegal (hx : exec i s = .next (raiseIllegal s)) (hi : i.legal = false) :
    EndsByChecks i s :=
  ⟨s, 0#32, by rw [hx, hi]; rfl, .refl s, fun _ => rfl⟩

end EndsByChecks

theorem setlvl_endsByChecks (h : Hdr) (rsv : BitVec 30) (level : BitVec 2) (s : State) :
    EndsByChecks (.setlvl h rsv level) s := by
  have hsome := levelOfCode_isSome level
  have hx : exec (.setlvl h rsv level) s = execSetlvl h rsv level s := rfl
  unfold execSetlvl at hx
  cases hl : levelOfCode level with
  | none =>
    rw [hl] at hx hsome
    exact .of_illegal hx (by simp [Instr.legal, ← hsome])
  | some l =>
    rw [hl] at hx hsome
    exact .of_effect (u := { s with level := l }) rfl hx
      (by simp [Instr.legal, ← hsome, badImm_eq_not]) ⟨⟨rfl, rfl, .same, .same⟩, rfl, rfl⟩

theorem read_endsByChecks (h : Hdr) (rsv : BitVec 24) (index : Byte) (s : State) :
    EndsByChecks (.read h rsv index) s := by
  have hsome := readWord_isSome s index
  have hx : exec (.read h rsv index) s = execRead h rsv index s := rfl
  unfold execRead at hx
  cases hv : readWord s index with
  | none =>
    rw [hv] at hx hsome
    exact .of_illegal hx (by simp [Instr.legal, ← hsome])
  | some v =>
    rw [hv] at hx hsome
    exact .of_answer hx (by simp [Instr.legal, ← hsome, badImm_eq_not])

theorem whenPortFree_of_free {s : State} (hs : s.held = none)
    (x : Host.Outcome State Fault Refusal) : whenPortFree s x = x :=
  if_neg (by simp [hs])

/-- R753: every command that is taken ends by the same checks. -/
theorem command_endsByChecks {i : Instr} {s : State} (hi : i.isCommand = true)
    (hport : s.held = none ∨ usesOutputPort i = false) : EndsByChecks i s := by
  cases i with
  | nop h imm => exact .of_answer rfl (badPlain_eq_not h imm)
  | start h imm =>
    exact .of_effect rfl rfl (badPlain_eq_not h imm) ⟨⟨rfl, rfl, .same, .same⟩, rfl, rfl⟩
  | stop h imm =>
    exact .of_effect rfl rfl (badPlain_eq_not h imm) ⟨⟨rfl, rfl, .same, .same⟩, rfl, rfl⟩
  | sample h rsv x q =>
    exact .of_effect rfl (whenPortFree_of_free (hport.resolve_right (by simp [usesOutputPort])) _)
      (badImm_eq_not h 16 rsv) (sampleStep_effect s x q)
  | setlvl h rsv level => exact setlvl_endsByChecks h rsv level s
  | settmo h rsv seconds =>
    exact .of_effect rfl rfl (badImm_eq_not h 8 rsv) ⟨⟨rfl, rfl, .same, .same⟩, rfl, rfl⟩
  | sweep h imm => exact .of_effect rfl rfl (badPlain_eq_not h imm) (sweepMaps_effect s)
  | mag h rsv x q => exact .of_answer rfl (badImm_eq_not h 16 rsv)
  | crc h imm p => exact .of_answer rfl (badLenForm_eq_not h imm)
  | syn h imm p => exact .of_answer rfl (badLenForm_eq_not h imm)
  | errbit h syndrome => exact .of_answer rfl rfl
  | getdf h imm p => exact .of_answer rfl (badPlain_eq_not h imm)
  | geticao h imm p => exact .of_answer rfl (badLenForm_eq_not h imm)
  | inject h imm p =>
    exact .of_effect rfl (whenPortFree_of_free (hport.resolve_right (by simp [usesOutputPort])) _)
      (badLenForm_eq_not h imm) (injectFrame_effect s h.len p)
  | query h rsv icao => exact .of_answer rfl (badImm_eq_not h 8 rsv)
  | read h rsv index => exact read_endsByChecks h rsv index s
  | reserved hi lo h imm => exact .of_illegal rfl rfl
  | _ => exact absurd hi Bool.false_ne_true

/-- The three ends of a taken command, each with the condition it stands under (R802). -/
theorem command_cases {i : Instr} {s : State} (hi : i.isCommand = true)
    (hport : s.held = none ∨ usesOutputPort i = false) :
    (i.legal = false ∧ exec i s = .next (raiseIllegal s)) ∨
    (i.legal = true ∧ canBeMisused i = true ∧ s.run = true ∧
      exec i s = .next (raiseMisuse s)) ∨
    (i.legal = true ∧ (s.run = false ∨ canBeMisused i = false) ∧ ∃ u v, exec i s = .next (respond u v) ∧
      CleanEffect s u ∧ (onlyAnswers i = true → u = s)) := by
  obtain ⟨u, v, hx, hu, ha⟩ := command_endsByChecks hi hport
  rw [hx]
  rcases runCommand_cases (!i.legal) (canBeMisused i && s.run) (respond u v) s with
    ⟨hl, h⟩ | ⟨hl, hm, h⟩ | ⟨hl, hm, h⟩
  · exact .inl ⟨by simpa using hl, h⟩
  · obtain ⟨hc, hr⟩ := (Bool.and_eq_true _ _).mp hm
    exact .inr (.inl ⟨by simpa using hl, hc, hr, h⟩)
  · exact .inr (.inr ⟨by simpa using hl, (Bool.and_eq_false_iff.mp hm).symm, u, v, h, hu, ha⟩)

/-- Settles O41. -/
theorem cerrTellsHowTheCommandEnded : Obligations.CerrTellsHowTheCommandEnded := by
  unfold Obligations.CerrTellsHowTheCommandEnded
  intro i s hi hport
  rcases command_cases hi hport with ⟨hl, hx⟩ | ⟨hl, hc, hr, hx⟩ | ⟨hl, hm, u, v, hx, hu, -⟩
  · exact ⟨_, hx, by simp [hl]⟩
  · exact ⟨_, hx, by simp [hl, hc, hr]⟩
  · refine ⟨_, hx, ?_⟩
    rcases hm with hr | hc
    · simp [hl, hr, hu.illegal, hu.misuse]
    · simp [hl, hc, hu.illegal, hu.misuse]

theorem isCommand_of_onlyAnswers {i : Instr} (h : onlyAnswers i = true) :
    i.isCommand = true ∧ usesOutputPort i = false ∧ canBeMisused i = false := by
  cases i with
  | nop | mag | crc | syn | errbit | getdf | geticao | query | read | reserved => exact ⟨rfl, rfl, rfl⟩
  | _ => exact absurd h Bool.false_ne_true

/-- Settles O50. -/
theorem reportingCommandsChangeOnlyTheResponse :
    Obligations.ReportingCommandsChangeOnlyTheResponse := by
  unfold Obligations.ReportingCommandsChangeOnlyTheResponse
  intro i s t ha hx
  obtain ⟨hi, hport, hc⟩ := isCommand_of_onlyAnswers ha
  rcases command_cases (s := s) hi (.inr hport) with
    ⟨hl, h⟩ | ⟨-, hm, -⟩ | ⟨-, -, u, v, h, -, hu⟩
  · rw [h] at hx
    cases hx
    exact ⟨rfl, by simp [hl]⟩
  · simp [hc] at hm
  · rw [h, hu ha] at hx
    cases hx
    exact ⟨rfl, fun _ => rfl⟩

/-! ### The effect of an instruction -/

/-- What is no command takes a stream sample or receives a whole frame (R321, R330). -/
theorem notCommand_cases {i : Instr} (hi : i.isCommand = false) (s : State) :
    (∃ x q, exec i s = execStreamSample x q s) ∨
    ∃ f, wholeFrame f ∧ exec i s = execFrame f s := by
  cases i with
  | streamSample x q => exact .inl ⟨x, q, rfl⟩
  | df0 low3 r | df4 low3 r | df5 low3 r | df11 low3 r =>
    exact .inr ⟨_, wholeFrame_shortFrame _ low3 r, rfl⟩
  | df16 low3 r | df17 low3 r | df18 low3 r | df20 low3 r | df21 low3 r | df24 low3 r
  | dfInvalid df low3 r => exact .inr ⟨_, wholeFrame_longFrame _ low3 r, rfl⟩
  | _ => exact absurd hi.symm Bool.false_ne_true

/-- R707: a command that is not taken waits. -/
theorem exec_of_port_taken {i : Instr} {s : State} (hi : usesOutputPort i = true)
    (hs : s.held ≠ none) : exec i s = .next s := by
  have hwait (x : Host.Outcome State Fault Refusal) : whenPortFree s x = .next s :=
    if_pos (Option.isSome_iff_ne_none.mpr hs)
  cases i with
  | sample | inject => exact hwait _
  | _ => exact absurd hi Bool.false_ne_true

theorem exec_effect {i : Instr} {s t : State} (h : exec i s = .next t) : Effect s t := by
  cases hi : i.isCommand with
  | true =>
    by_cases hport : s.held = none ∨ usesOutputPort i = false
    · rcases command_cases hi hport with ⟨-, hx⟩ | ⟨-, -, -, hx⟩ | ⟨-, -, u, v, hx, hu, -⟩
      · cases hx.symm.trans h
        exact ⟨rfl, rfl, .same, .same⟩
      · cases hx.symm.trans h
        exact ⟨rfl, rfl, .same, .same⟩
      · cases hx.symm.trans h
        exact ⟨hu.cfg, hu.now, hu.maps, hu.port⟩
    · obtain ⟨hs, huse⟩ := not_or.mp hport
      cases (exec_of_port_taken (Bool.eq_true_of_not_eq_false huse) hs).symm.trans h
      exact (CleanEffect.refl s).toEffect
  | false =>
    rcases notCommand_cases hi s with ⟨x, q, hx⟩ | ⟨f, hf, hx⟩
    · rw [hx, execStreamSample] at h
      split at h
      · cases h
        exact (sampleStep_effect s x q).toEffect
      · cases h
        exact (CleanEffect.refl s).toEffect
    · rw [hx, execFrame] at h
      rcases whenPortFree_cases s (.next (receiveFrame s f).2) with ⟨-, -, hw⟩ | ⟨-, hw⟩
      · cases hw.symm.trans h
        exact (CleanEffect.refl s).toEffect
      · cases hw.symm.trans h
        exact (receiveFrame_effect s hf).toEffect

/-! ### Every step -/

/-- `P` holds of the state a move leads to, or in which it runs its instruction. -/
def Move.Leaves (P : State → Prop) : Move → Prop
  | .still t | .acts t | .runs _ t => P t
  | .stuck _ => True

section Step

variable {P : State → Prop}
  (hturn : ∀ (s : State) (now : U64) (producer : List (BitVec 16)) (hostQ : List Command)
    (sched : List Turn), s.now.toNat ≤ now.toNat → P s →
    P { s with now := now, producer := producer, hostQ := hostQ, sched := sched })
  (heffect : ∀ s t : State, Effect s t → P s → P t)
  (hreset : ∀ s : State, P s → P (resetStep s))
include hturn heffect hreset

theorem agentMove_leaves {s : State} (u : Turn) (hs : P s) : (agentMove s u).Leaves P := by
  rcases agentMove_cases s u with h | ⟨-, h⟩ | ⟨-, -, h⟩ | ⟨hnow, ⟨-, h⟩ | ⟨-, -, h⟩ |
    ⟨-, -, w, more, -, h⟩ | ⟨-, c, more, -, -, h⟩⟩ <;> rw [h]
  · exact hs
  · exact heffect s _ (acceptRecord_effect s) hs
  · trivial
  · exact hreset _ (hturn s _ _ _ _ hnow hs)
  · exact heffect _ _ (timerStep_effect _) (hturn s _ _ _ _ hnow hs)
  · exact hturn s _ _ _ _ hnow hs
  · exact hturn s _ _ _ _ hnow hs

/-- The induction behind every invariant: it is enough to look at what lies outside the block, at an
`Effect`, and at reset. -/
theorem step_keeps {s t : State} (h : step s = .next t) (hs : P s) : P t := by
  have hmove : (nextMove s).Leaves P := by
    rcases nextMove_cases s with ⟨-, hm⟩ | ⟨u, rest, -, hm⟩ <;> rw [hm]
    · exact hs
    · exact agentMove_leaves hturn heffect hreset u (hturn s s.now s.producer s.hostQ rest le_rfl hs)
  cases hw : s.cfg.wf with
  | false => cases (step_of_wf_eq_false hw).symm.trans h
  | true =>
    rcases step_cases s hw with ⟨u, hm, hx⟩ | ⟨u, hm, hx⟩ | ⟨i, u, hm, hx⟩ | ⟨r, hm, hx⟩ <;>
      rw [hm] at hmove <;> rw [hx] at h
    · cases h
      exact hmove
    · cases h
      exact hmove
    · exact heffect u t (exec_effect h) hmove
    · cases h

end Step

/-! ### The invariants -/

theorem Effect.mapsOk {s t : State} (h : Effect s t) (hs : s.mapsOk) : t.mapsOk := by
  obtain ⟨hT, hC, hd⟩ := hs
  exact ⟨h.maps.wf_trusted hT, h.maps.wf_candidate hC, h.maps.disjoint hC hd⟩

theorem Effect.countsOk {s t : State} (h : Effect s t) (hs : s.countsOk) : t.countsOk :=
  h.maps.forall_candidate (Q := fun r => 1 ≤ r.validFrames.toNat) (fun _ hn => hn) hs

theorem Effect.timesOk {s t : State} (h : Effect s t) (hs : s.timesOk) : t.timesOk := by
  obtain ⟨hT, hC⟩ := hs
  unfold State.timesOk
  rw [h.now]
  exact ⟨h.maps.forall_trusted (Q := fun seen => seen.toNat ≤ s.now.toNat) le_rfl hT,
    h.maps.forall_candidate (Q := fun r => r.lastSeen.toNat ≤ s.now.toNat) (fun _ _ => le_rfl) hC⟩

theorem Effect.capacityOk {s t : State} (h : Effect s t) (hm : s.mapsOk) (hs : s.capacityOk) :
    t.capacityOk := by
  obtain ⟨hT, hC, -⟩ := hm
  obtain ⟨hcapT, hcapC⟩ := hs
  unfold State.capacityOk
  rw [h.cfg]
  exact ⟨h.maps.trusted_le_capacity hT hcapT, h.maps.candidate_le_capacity hC hcapC⟩

theorem PortChange.outOk {out out' : List OutRecord} {held held' : Option OutRecord}
    (h : PortChange out held out' held')
    (hs : (∀ r ∈ out, r.shapeOk) ∧ ∀ r, held = some r → out.getLast? = some r) :
    (∀ r ∈ out', r.shapeOk) ∧ ∀ r, held' = some r → out'.getLast? = some r := by
  obtain ⟨hshape, hlast⟩ := hs
  cases h with
  | same => exact ⟨hshape, hlast⟩
  | emitted r hr =>
    refine ⟨fun x hx => ?_, fun x hx => ?_⟩
    · rcases List.mem_append.mp hx with hx | hx
      · exact hshape x hx
      · exact List.mem_singleton.mp hx ▸ hr
    · rw [List.getLast?_concat, hx]
  | accepted => exact ⟨hshape, fun _ hx => absurd hx (by simp)⟩

theorem Effect.outOk {s t : State} (h : Effect s t) (hs : s.outOk) : t.outOk := h.port.outOk hs

/-- A later time input leaves the stored times in the past. -/
theorem timesOk_of_now_le {s : State} {now : U64} (hnow : s.now.toNat ≤ now.toNat)
    (hs : s.timesOk) : { s with now := now }.timesOk := by
  obtain ⟨hT, hC⟩ := hs
  exact ⟨fun e he => (hT e he).trans hnow, fun e he => (hC e he).trans hnow⟩

theorem resetStep_mapsOk (s : State) : (resetStep s).mapsOk := ⟨rfl, rfl, by simp [State.disjointMaps]⟩

theorem resetStep_countsOk (s : State) : (resetStep s).countsOk := by simp [State.countsOk]

theorem resetStep_timesOk (s : State) : (resetStep s).timesOk := by simp [State.timesOk]

theorem resetStep_outOk (s : State) : (resetStep s).outOk := by simp [State.outOk]

theorem resetStep_capacityOk (s : State) : (resetStep s).capacityOk := by simp [State.capacityOk]

/-- Settles O54. -/
theorem stepKeepsTheMapsDisjoint : Obligations.StepKeepsTheMapsDisjoint := by
  unfold Obligations.StepKeepsTheMapsDisjoint
  intro s t hs h
  exact step_keeps (P := State.mapsOk) (fun _ _ _ _ _ _ hs => hs) (fun _ _ he => he.mapsOk)
    (fun s _ => resetStep_mapsOk s) h hs

/-- Settles O55. The time input is compared with that of the state before the step, so the second
invariant is carried together with that bound. -/
theorem stepKeepsCountsAndTimes : Obligations.StepKeepsCountsAndTimes := by
  unfold Obligations.StepKeepsCountsAndTimes
  refine ⟨fun s t hs h => ?_, fun s t hs h => ?_⟩
  · exact step_keeps (P := State.countsOk) (fun _ _ _ _ _ _ hs => hs) (fun _ _ he => he.countsOk)
      (fun s _ => resetStep_countsOk s) h hs
  · refine step_keeps (P := fun u => u.timesOk ∧ s.now.toNat ≤ u.now.toNat)
      (fun u now _ _ _ hnow hu => ?_) (fun u v he hu => ?_) (fun u hu => ?_) h ⟨hs, le_rfl⟩
    · exact ⟨timesOk_of_now_le hnow hu.1, hu.2.trans hnow⟩
    · exact ⟨he.timesOk hu.1, he.now ▸ hu.2⟩
    · exact ⟨resetStep_timesOk u, hu.2⟩

/-- Settles O56. -/
theorem stepKeepsTheOutputShape : Obligations.StepKeepsTheOutputShape := by
  unfold Obligations.StepKeepsTheOutputShape
  intro s t hs h
  exact step_keeps (P := State.outOk) (fun _ _ _ _ _ _ hs => hs) (fun _ _ he => he.outOk)
    (fun s _ => resetStep_outOk s) h hs

/-- Settles O57. The canonical form is carried along: `KeyMap.put` replaces an entry only in a
canonical map. -/
theorem stepKeepsTheCapacities : Obligations.StepKeepsTheCapacities := by
  unfold Obligations.StepKeepsTheCapacities
  intro s t hm hs h
  exact (step_keeps (P := fun u => u.mapsOk ∧ u.capacityOk) (fun _ _ _ _ _ _ hu => hu)
    (fun _ _ he hu => ⟨he.mapsOk hu.1, he.capacityOk hu.1 hu.2⟩)
    (fun u _ => ⟨resetStep_mapsOk u, resetStep_capacityOk u⟩) h ⟨hm, hs⟩).2

end Sys2Proof.Machine
end

section
/-!
PROOFS of the memory family (20_memory.md R206): what a received frame, an injected frame and a sample
step leave unchanged. Each operation of the trust filter is brought to one relation, `FrameEffect`, that
names the registers it may write and the keys of the maps it may touch.
-/

namespace Sys2Proof.Machine

open Sys2Proof.Claims

/-! ### What the trust filter leaves unchanged -/

/-- What the trust filter may do on its way from `s` to `t`: write the maps, at keys of `K` only,
STATUS.OVF and the output. -/
structure FrameEffect (K : Set U24) (s t : State) : Prop where
  unchanged : t = { s with
    trusted := t.trusted, candidate := t.candidate, ovf := t.ovf, out := t.out, held := t.held }
  trusted : ∀ b ∉ K, KeyMap.find t.trusted b = KeyMap.find s.trusted b
  candidate : ∀ b ∉ K, KeyMap.find t.candidate b = KeyMap.find s.candidate b

section FrameEffect

variable {K : Set U24} {s t u : State} {a : U24}

theorem FrameEffect.refl (K : Set U24) (s : State) : FrameEffect K s s :=
  ⟨rfl, fun _ _ => rfl, fun _ _ => rfl⟩

theorem FrameEffect.ring (h : FrameEffect K s t) : t.ring = s.ring := by rw [h.unchanged]

theorem FrameEffect.cursor (h : FrameEffect K s t) : t.cursor = s.cursor := by rw [h.unchanged]

theorem FrameEffect.fbuf (h : FrameEffect K s t) : t.fbuf = s.fbuf := by rw [h.unchanged]

theorem FrameEffect.prevAvg (h : FrameEffect K s t) : t.prevAvg = s.prevAvg := by rw [h.unchanged]

theorem FrameEffect.trans (hst : FrameEffect K s t) (htu : FrameEffect K t u) :
    FrameEffect K s u where
  unchanged := htu.unchanged.trans (congrArg (fun x : State => { x with
    trusted := u.trusted, candidate := u.candidate, ovf := u.ovf, out := u.out, held := u.held })
    hst.unchanged)
  trusted b hb := (htu.trusted b hb).trans (hst.trusted b hb)
  candidate b hb := (htu.candidate b hb).trans (hst.candidate b hb)

theorem trustedPut_frameEffect (s : State) (ha : a ∈ K) (v : U64) :
    FrameEffect K s { s with trusted := KeyMap.put s.trusted a v } :=
  ⟨rfl, fun _ hb => KeyMap.find_put_ne _ v (ne_of_mem_of_not_mem ha hb).symm, fun _ _ => rfl⟩

theorem candidatePut_frameEffect (s : State) (ha : a ∈ K) (r : CandidateEntry) :
    FrameEffect K s { s with candidate := KeyMap.put s.candidate a r } :=
  ⟨rfl, fun _ _ => rfl, fun _ hb => KeyMap.find_put_ne _ r (ne_of_mem_of_not_mem ha hb).symm⟩

theorem dropCandidate_frameEffect (s : State) (ha : a ∈ K) :
    FrameEffect K s (dropCandidate s a) :=
  ⟨rfl, fun _ _ => rfl, fun _ hb => KeyMap.find_remove_ne _ (ne_of_mem_of_not_mem ha hb).symm⟩

theorem setOvf_frameEffect (K : Set U24) (s : State) : FrameEffect K s (setOvf s) :=
  ⟨rfl, fun _ _ => rfl, fun _ _ => rfl⟩

theorem emitFrame_frameEffect (K : Set U24) (s : State) (d : DownlinkFormat) (f : Frame) (a : U24) :
    FrameEffect K s (emitFrame s d f a) :=
  ⟨rfl, fun _ _ => rfl, fun _ _ => rfl⟩

theorem putTrusted_frameEffect (s : State) (ha : a ∈ K) : FrameEffect K s (putTrusted s a) := by
  rcases putTrusted_cases s a with ⟨-, h⟩ | ⟨-, -, h⟩ <;> rw [h]
  · exact trustedPut_frameEffect s ha s.now
  · exact setOvf_frameEffect K s

theorem putCandidate_frameEffect (s : State) (ha : a ∈ K) (r : CandidateEntry) :
    FrameEffect K s (putCandidate s a r).2 := by
  rcases putCandidate_cases s a r with ⟨-, h⟩ | ⟨-, h⟩ <;> rw [h]
  · exact candidatePut_frameEffect s ha r
  · exact setOvf_frameEffect K s

theorem validatePi_frameEffect (s : State) (d : DownlinkFormat) {f : Frame}
    (ha : getIcao s.cfg f ∈ K) : FrameEffect K s (validatePi s d f).2 := by
  rcases validatePi_cases s d f with ⟨-, h⟩ | ⟨-, -, h⟩ | ⟨-, -, h⟩ <;> rw [h]
  · exact .refl K s
  · exact .refl K s
  · exact ((putTrusted_frameEffect s ha).trans (dropCandidate_frameEffect _ ha)).trans
      (emitFrame_frameEffect K _ d f _)

theorem validateAp_frameEffect (s : State) (d : DownlinkFormat) {f : Frame}
    (ha : syndrome24 f ∈ K) : FrameEffect K s (validateAp s d f).2 := by
  rcases validateAp_cases s d f with ⟨-, h⟩ | ⟨-, -, h⟩ | ⟨-, -, -, h⟩ | ⟨-, -, -, h⟩ <;> rw [h]
  · exact (trustedPut_frameEffect s ha s.now).trans (emitFrame_frameEffect K _ d f _)
  · exact ((dropCandidate_frameEffect s ha).trans (putTrusted_frameEffect _ ha)).trans
      (emitFrame_frameEffect K _ d f _)
  · exact candidatePut_frameEffect s ha _
  · exact putCandidate_frameEffect s ha _

theorem validate_frameEffect (s : State) {f : Frame} (hf : frameKey s.cfg f ∈ K) :
    FrameEffect K s (validate s f).2 := by
  rw [validate_eq]
  unfold frameKey at hf
  split at hf
  case isTrue hpi =>
    rw [if_pos hpi]
    exact validatePi_frameEffect s _ hf
  case isFalse hpi =>
    rw [if_neg hpi]
    exact validateAp_frameEffect s _ hf

end FrameEffect

/-! ### Received and injected frames -/

theorem receiveFrame_frameEffect (s : State) (f : Frame) :
    FrameEffect {frameKey s.cfg f} s (receiveFrame s f).2 := by
  rcases receiveFrame_cases s f with ⟨-, h⟩ | ⟨-, -, h⟩ | ⟨-, -, -, h⟩ | ⟨-, -, -, h⟩ <;> rw [h]
  case inr.inr.inr => exact validate_frameEffect s rfl
  all_goals exact .refl _ s

theorem injectFrame_frameEffect (s : State) (len : BitVec 4) (p : Payload) :
    FrameEffect {frameKey s.cfg (commandFrame len p)} s (injectFrame s len p).2 := by
  rcases injectFrame_cases s len p with
    ⟨-, h⟩ | ⟨-, -, h⟩ | ⟨-, -, -, h⟩ | ⟨-, -, -, -, h⟩ | ⟨-, -, -, -, h⟩ <;> rw [h]
  case inr.inr.inr.inr => exact validate_frameEffect s rfl
  all_goals exact .refl _ s

/-- A row of R321 is the reception of the frame its instruction carries. -/
theorem exec_of_receives {family : Bool} {i : Instr} {d : DownlinkFormat} {f : Frame}
    (h : Receives family i d f) (s : State) : exec i s = execFrame f s := by
  cases i with
  | df0 low3 r | df4 low3 r | df5 low3 r | df11 low3 r | df16 low3 r | df17 low3 r | df18 low3 r
  | df20 low3 r | df21 low3 r | df24 low3 r =>
    obtain ⟨-, rfl⟩ := h
    rfl
  | dfInvalid df low3 r =>
    obtain ⟨-, -, -, rfl⟩ := h
    rfl
  | _ => exact h.elim

theorem execFrame_frameEffect {f : Frame} {s t : State} (h : execFrame f s = .next t) :
    FrameEffect {frameKey s.cfg f} s t := by
  rcases whenPortFree_cases s (.next (receiveFrame s f).2) with ⟨-, -, hw⟩ | ⟨-, hw⟩ <;>
    cases hw.symm.trans h
  · exact .refl _ s
  · exact receiveFrame_frameEffect s f

/-- INJECT has the effect of its frame, and then writes the response or raises an error. -/
theorem execInject_frameEffect {h : Hdr} {imm : U32} {p : Payload} {s t : State}
    (ht : execInject h imm p s = .next t) :
    ∃ u, FrameEffect {frameKey s.cfg (commandFrame h.len p)} s u ∧
      t = { u with res := t.res, cerr := t.cerr, misuse := t.misuse, illegal := t.illegal } := by
  unfold execInject at ht
  rcases whenPortFree_cases s _ with ⟨-, -, hw⟩ | ⟨-, hw⟩ <;> rw [hw] at ht
  · cases ht
    exact ⟨s, .refl _ s, rfl⟩
  · rcases runCommand_cases _ _ _ s with ⟨-, hx⟩ | ⟨-, -, hx⟩ | ⟨-, -, hx⟩ <;>
      cases hx.symm.trans ht
    · exact ⟨s, .refl _ s, rfl⟩
    · exact ⟨s, .refl _ s, rfl⟩
    · exact ⟨_, injectFrame_frameEffect s h.len p, rfl⟩

/-- Settles O52. -/
theorem frameTouchesOneKey : Obligations.FrameTouchesOneKey := by
  unfold Obligations.FrameTouchesOneKey
  refine ⟨fun i d f s t hi ht => ?_, fun h imm p s t ht => ?_⟩
  · obtain ⟨hframe, htrusted, hcandidate⟩ :=
      execFrame_frameEffect ((exec_of_receives hi s).symm.trans ht)
    exact ⟨hframe, fun b hb => ⟨htrusted b hb, hcandidate b hb⟩⟩
  · obtain ⟨u, ⟨hframe, htrusted, hcandidate⟩, hresponse⟩ := execInject_frameEffect ht
    rw [hresponse]
    exact ⟨congrArg (fun x : State => { x with
      res := t.res, cerr := t.cerr, misuse := t.misuse, illegal := t.illegal }) hframe,
      fun b hb => ⟨htrusted b hb, hcandidate b hb⟩⟩

/-! ### The sample step (R701) -/

/-- The key of the frame that the window at the cursor slices to; none where the attempt aborts. -/
def windowKeys (s : State) : Set U24 :=
  { b | ∃ f, (sliceWindow s).1 = .frame f ∧ b = frameKey s.cfg f }

theorem validate_windowFrame_frameEffect {s : State} {f : Frame}
    (hf : (sliceWindow s).1 = .frame f) :
    FrameEffect (windowKeys s) (sliceWindow s).2 (validate (sliceWindow s).2 f).2 :=
  validate_frameEffect _ ⟨f, hf, rfl⟩

/-- A sample step stores the sample, and then either ends or slices the window and has the effect of
the frame found there. -/
theorem sampleStep_frameEffect (s : State) (i q : Byte) :
    (sampleStep s i q).2 = writeSample s i q ∨
    (preamble (writeSample s i q).ring (writeSample s i q).cursor = true ∧
      FrameEffect (windowKeys (writeSample s i q)) (sliceWindow (writeSample s i q)).2
        (sampleStep s i q).2) := by
  rcases sampleStep_cases s i q with ⟨-, h⟩ | ⟨hp, reason, -, h⟩ | ⟨hp, f, hf, h⟩ <;> rw [h]
  · exact .inl rfl
  · exact .inr ⟨hp, .refl _ _⟩
  · exact .inr ⟨hp, validate_windowFrame_frameEffect hf⟩

theorem writeSample_ring_of_ne (s : State) (i q : Byte) {j : Fin 240} (hj : j ≠ s.cursor) :
    (writeSample s i q).ring[j] = s.ring[j] :=
  Vector.getElem_set_ne s.cursor.isLt j.isLt fun h => hj (Fin.ext h.symm)

theorem writeSample_ring_cursor (s : State) (i q : Byte) :
    (writeSample s i q).ring[s.cursor] = romMag i q :=
  Vector.getElem_set_self s.cursor.isLt

theorem writeSample_cursor_val (s : State) (i q : Byte) :
    (writeSample s i q).cursor.val = (s.cursor.val + 1) % 240 :=
  Fin.val_add s.cursor 1

/-- Settles O30. -/
theorem sampleStepFrame : Obligations.SampleStepFrame := by
  unfold Obligations.SampleStepFrame
  intro s t i q x hx
  have hstep := sampleStep_frameEffect s i q
  simp only [hx] at hstep
  rcases hstep with rfl | ⟨hp, heffect⟩
  · exact ⟨rfl, writeSample_cursor_val s i q, fun _ hj => writeSample_ring_of_ne s i q hj,
      writeSample_ring_cursor s i q, fun _ => ⟨rfl, rfl, rfl, rfl, rfl, rfl, rfl⟩,
      fun _ _ => ⟨rfl, rfl⟩⟩
  · have hring : t.ring = (writeSample s i q).ring := heffect.ring
    have hcursor : t.cursor = (writeSample s i q).cursor := heffect.cursor
    rw [hring, hcursor]
    refine ⟨?_, writeSample_cursor_val s i q, fun _ hj => writeSample_ring_of_ne s i q hj,
      writeSample_ring_cursor s i q, fun hnone => absurd (hnone.symm.trans hp) Bool.false_ne_true,
      fun b hb => ?_⟩
    · rw [heffect.fbuf, heffect.prevAvg]
      exact heffect.unchanged
    · have hkey : b ∉ windowKeys (writeSample s i q) := fun ⟨f, hf, hbf⟩ => hb f hf hbf
      exact ⟨heffect.trusted b hkey, heffect.candidate b hkey⟩

end Sys2Proof.Machine
end

section
/-!
PROOFS of the encoding family (30_encoding.md R301-R306, R321, R330): the decoder and the encoder are
inverse to each other. First the words cut into fields and put together again, then what the decoder
reads from a command and from a frame buffer, then the statements.
-/

namespace Sys2Proof

/-! ### Words cut into fields and put together again -/

section Fields

variable {l m n : Nat} (x : BitVec l) (y : BitVec m) (z : BitVec n)

theorem extractHigh_append : (x ++ y ++ z).extractLsb' (m + n) l = x := by
  rw [BitVec.extractLsb'_append_eq_of_le (Nat.le_add_left n m), Nat.add_sub_cancel]
  exact BitVec.extractLsb'_append_eq_left

theorem extractMiddle_append : (x ++ y ++ z).extractLsb' n m = y := by
  rw [BitVec.extractLsb'_append_eq_of_le le_rfl, Nat.sub_self]
  exact BitVec.extractLsb'_append_eq_right

theorem append_extractFields (w : BitVec (l + m + n)) :
    w.extractLsb' (m + n) l ++ w.extractLsb' n m ++ w.extractLsb' 0 n = w := by
  rw [BitVec.extractLsb'_append_extractLsb'_eq_extractLsb' (Nat.add_comm m n),
    BitVec.extractLsb'_append_extractLsb'_eq_extractLsb' (Nat.zero_add n).symm]
  exact BitVec.extractLsb'_eq_self

end Fields

section Words

variable (op i q : Byte) (rsv : BitVec 16) (h : Hdr) (imm : U32) (p : Payload) (c : Command)

@[simp] theorem op_encodeHdr : (⟨encodeHdr op h, imm, p⟩ : Command).op = op :=
  BitVec.extractLsb'_append_eq_right

@[simp] theorem fields_encodeHdr : (⟨encodeHdr op h, imm, p⟩ : Command).fields = h :=
  congrArg₂ Hdr.mk (extractHigh_append h.rsv h.len op) (extractMiddle_append h.rsv h.len op)

@[simp] theorem encodeHdr_fields : encodeHdr c.op c.fields = c.hdr :=
  append_extractFields (l := 20) (m := 4) (n := 8) c.hdr

@[simp] theorem rsv_encodeIQ : (encodeIQ rsv i q).extractLsb' 16 16 = rsv :=
  extractHigh_append rsv i q

@[simp] theorem immI_encodeIQ : immI (encodeIQ rsv i q) = i :=
  extractMiddle_append rsv i q

@[simp] theorem immQ_encodeIQ : immQ (encodeIQ rsv i q) = q :=
  BitVec.extractLsb'_append_eq_right

@[simp] theorem encodeIQ_immI_immQ :
    encodeIQ (imm.extractLsb' 16 16) (immI imm) (immQ imm) = imm :=
  append_extractFields (l := 16) (m := 8) (n := 8) imm

end Words

theorem toNat_nibbles (hi lo : BitVec 4) :
    (hi ++ lo : BitVec (4 + 4)).toNat = 16 * hi.toNat + lo.toNat := by
  rw [BitVec.toNat_append, ← Nat.shiftLeft_add_eq_or_of_lt lo.isLt, Nat.shiftLeft_eq, Nat.mul_comm]

theorem append_nibbles (b : Byte) : (b.extractLsb' 4 4 ++ b.extractLsb' 0 4 : BitVec (4 + 4)) = b :=
  BitVec.extractLsb'_append_extractLsb'

/-! ### Commands -/

/-- R304, R306. -/
theorem decodeCommand_of_reserved {c : Command} (hop : 0x10 ≤ c.op.toNat) :
    decodeCommand c = .reserved (c.op.extractLsb' 4 4) (c.op.extractLsb' 0 4) c.fields c.imm := by
  unfold decodeCommand
  split
  case h_17 => rfl
  all_goals omega

theorem reserved_wf_iff {hi lo : BitVec 4} {h : Hdr} {imm : U32} :
    (Instr.reserved hi lo h imm).wf = true ↔ 0x10 ≤ (hi ++ lo : BitVec (4 + 4)).toNat := by
  have hlo := lo.isLt
  have hzero : hi = 0#4 ↔ hi.toNat = 0 := BitVec.toNat_inj.symm
  rw [toNat_nibbles, Instr.wf, bne_iff_ne, ne_eq, hzero]
  omega

theorem decodeCommand_wf (c : Command) : (decodeCommand c).wf = true := by
  by_cases hop : 0x10 ≤ c.op.toNat
  · rw [decodeCommand_of_reserved hop, reserved_wf_iff, append_nibbles]
    exact hop
  · unfold decodeCommand
    split
    case h_17 =>
      simp only [imp_false] at *
      omega
    all_goals rfl

theorem encodeCommand_fields {c : Command} {op : Byte} {imm : U32} (hop : c.op.toNat = op.toNat)
    (himm : imm = c.imm) (p : Payload) :
    encodeCommand op c.fields imm p = .command ⟨c.hdr, c.imm, p⟩ := by
  obtain rfl : c.op = op := BitVec.eq_of_toNat_eq hop
  rw [encodeCommand, encodeHdr_fields, himm]

/-- The operation codes of the commands that read their payload (R302). -/
def payloadOps : List Nat := [0x08, 0x09, 0x0B, 0x0C, 0x0D]

/-- What a command is decoded to determines its header and immediate word, and its payload where the
command reads it (R301, R302). -/
theorem encode_decodeCommand (c : Command) :
    ∃ p, encode (decodeCommand c) = .command ⟨c.hdr, c.imm, p⟩ ∧
      (c.op.toNat ∈ payloadOps → p = c.payload) := by
  unfold decodeCommand
  split
  case h_1 h | h_2 h | h_3 h | h_7 h | h_11 h =>
    exact ⟨_, encodeCommand_fields h rfl noPayload, by simp [payloadOps, h]⟩
  case h_4 h | h_8 h =>
    exact ⟨_, encodeCommand_fields h (encodeIQ_immI_immQ _) noPayload, by simp [payloadOps, h]⟩
  case h_5 h | h_6 h | h_15 h | h_16 h =>
    exact ⟨_, encodeCommand_fields h BitVec.extractLsb'_append_extractLsb' noPayload,
      by simp [payloadOps, h]⟩
  case h_9 h | h_10 h | h_12 h | h_13 h | h_14 h =>
    exact ⟨_, encodeCommand_fields h rfl c.payload, fun _ => rfl⟩
  case h_17 =>
    refine ⟨_, encodeCommand_fields (by rw [append_nibbles]) rfl noPayload, fun hop => ?_⟩
    simp_all [payloadOps]

/-! ### Frame buffers -/

theorem payload_eq (buf : Payload) :
    #v[buf[0], buf[1], buf[2], buf[3], buf[4], buf[5], buf[6], buf[7], buf[8], buf[9], buf[10],
      buf[11], buf[12], buf[13]] = buf := by
  ext j hj
  interval_cases j <;> rfl

@[simp] theorem df_frameByte0 (df : BitVec 5) (low3 : BitVec 3) :
    (frameByte0 df low3).extractLsb' 3 5 = df := BitVec.extractLsb'_append_eq_left

@[simp] theorem low3_frameByte0 (df : BitVec 5) (low3 : BitVec 3) :
    (frameByte0 df low3).extractLsb' 0 3 = low3 := BitVec.extractLsb'_append_eq_right

@[simp] theorem frameByte0_fields (b : Byte) :
    frameByte0 (b.extractLsb' 3 5) (b.extractLsb' 0 3) = b := BitVec.extractLsb'_append_extractLsb'

theorem toNat_df (b : Byte) : (b.extractLsb' 3 5).toNat = b.toNat / 8 := by
  have hb := b.isLt
  rw [BitVec.extractLsb'_toNat, Nat.shiftRight_eq_div_pow]
  omega

theorem knownDf_contains_iff (df : BitVec 5) :
    knownDf.contains df = true ↔ df.toNat ∈ [0, 4, 5, 11, 16, 17, 18, 20, 21, 24] := by
  decide +revert

theorem decodeFrame_of_unknown {buf : Payload}
    (h : knownDf.contains (buf[0].extractLsb' 3 5) = false) :
    decodeFrame buf =
      .dfInvalid (buf[0].extractLsb' 3 5) (buf[0].extractLsb' 0 3) (longRest buf) := by
  rw [Bool.eq_false_iff, ne_eq, knownDf_contains_iff] at h
  simp only [decodeFrame]
  split
  case h_11 => rfl
  all_goals simp_all

theorem decodeFrame_wf (buf : Payload) : (decodeFrame buf).wf = true := by
  cases h : knownDf.contains (buf[0].extractLsb' 3 5) with
  | false =>
    rw [decodeFrame_of_unknown h, Instr.wf, h]
    rfl
  | true =>
    rw [knownDf_contains_iff] at h
    simp only [decodeFrame]
    split
    case h_11 => simp_all
    all_goals rfl

theorem decode_wf (x : Transfer) : (decode x).wf = true := by
  cases x with
  | command c => exact decodeCommand_wf c
  | stream w => rfl
  | frame buf => exact decodeFrame_wf buf

theorem encodeShort_congr {k df : BitVec 5} (h : df.toNat = k.toNat) (low3 : BitVec 3)
    (r : Vector Byte 6) : encodeShort k low3 r = encodeShort df low3 r := by
  rw [BitVec.eq_of_toNat_eq h]

theorem encodeLong_congr {k df : BitVec 5} (h : df.toNat = k.toNat) (low3 : BitVec 3)
    (r : Vector Byte 13) : encodeLong k low3 r = encodeLong df low3 r := by
  rw [BitVec.eq_of_toNat_eq h]

/-- The rows of the four short formats are encoded as short frames, every other row as a long one,
each under the downlink format it was decoded from (R321). -/
theorem encode_decodeFrame (buf : Payload) :
    encode (decodeFrame buf) =
      if buf[0].toNat / 8 ∈ [0, 4, 5, 11] then
        encodeShort (buf[0].extractLsb' 3 5) (buf[0].extractLsb' 0 3) (shortRest buf)
      else encodeLong (buf[0].extractLsb' 3 5) (buf[0].extractLsb' 0 3) (longRest buf) := by
  rw [← toNat_df]
  simp only [decodeFrame]
  split
  case h_1 h | h_2 h | h_3 h | h_4 h =>
    rw [if_pos (by simp only [h]; decide)]
    exact encodeShort_congr h _ _
  case h_5 h | h_6 h | h_7 h | h_8 h | h_9 h | h_10 h =>
    rw [if_neg (by simp only [h]; decide)]
    exact encodeLong_congr h _ _
  case h_11 =>
    rw [if_neg (by simp_all)]
    rfl

theorem encodeLong_longRest (buf : Payload) :
    encodeLong (buf[0].extractLsb' 3 5) (buf[0].extractLsb' 0 3) (longRest buf) = .frame buf := by
  rw [encodeLong, frameByte0_fields]
  exact congrArg Transfer.frame (payload_eq buf)

theorem encodeShort_shortRest (buf : Payload) :
    ∃ buf' : Payload,
      encodeShort (buf[0].extractLsb' 3 5) (buf[0].extractLsb' 0 3) (shortRest buf) = .frame buf' ∧
      ∀ j : Fin 7, buf'[j] = buf[j] := by
  refine ⟨_, rfl, fun j => ?_⟩
  rw [frameByte0_fields]
  fin_cases j <;> rfl

theorem shortRest_encodeShort (b : Byte) (r : Vector Byte 6) :
    shortRest #v[b, r[0], r[1], r[2], r[3], r[4], r[5], 0#8, 0#8, 0#8, 0#8, 0#8, 0#8, 0#8] = r := by
  ext j hj
  interval_cases j <;> rfl

theorem longRest_encodeLong (b : Byte) (r : Vector Byte 13) :
    longRest #v[b, r[0], r[1], r[2], r[3], r[4], r[5], r[6], r[7], r[8], r[9], r[10], r[11],
      r[12]] = r := by
  ext j hj
  interval_cases j <;> rfl

/-! ### The statements -/

/-- Settles O36: each field of an instruction is read back from where its row writes it. -/
theorem decodeOfEncodeIsTheInstruction : Obligations.DecodeOfEncodeIsTheInstruction := by
  unfold Obligations.DecodeOfEncodeIsTheInstruction
  intro i hi
  cases i with
  | nop | start | stop | sample | sweep | mag | crc | syn | errbit | getdf | geticao | inject =>
    simp [encode, encodeCommand, decode, decodeCommand]
  | setlvl h rsv x | settmo h rsv x | query h rsv x | read h rsv x =>
    simp only [encode, encodeCommand, decode, decodeCommand, op_encodeHdr, fields_encodeHdr]
    exact congrArg₂ _ BitVec.extractLsb'_append_eq_left BitVec.extractLsb'_append_eq_right
  | reserved high lo h imm =>
    rw [reserved_wf_iff] at hi
    rw [encode, encodeCommand, decode, decodeCommand_of_reserved (by rwa [op_encodeHdr]),
      op_encodeHdr, fields_encodeHdr, BitVec.extractLsb'_append_eq_left,
      BitVec.extractLsb'_append_eq_right]
  | streamSample x q =>
    exact congrArg₂ _ BitVec.extractLsb'_append_eq_left BitVec.extractLsb'_append_eq_right
  | df0 low3 r | df4 low3 r | df5 low3 r | df11 low3 r =>
    simp [encode, decode, encodeShort, decodeFrame, shortRest_encodeShort]
  | df16 low3 r | df17 low3 r | df18 low3 r | df20 low3 r | df21 low3 r | df24 low3 r =>
    simp [encode, decode, encodeLong, decodeFrame, longRest_encodeLong]
  | dfInvalid df low3 r =>
    have hdf : knownDf.contains df = false := by simpa [Instr.wf] using hi
    rw [encode, encodeLong, decode, decodeFrame_of_unknown (by simpa using hdf)]
    simp [longRest_encodeLong]

/-- Settles O37: the fields that a row reads, put together again, are the words they were cut from. -/
theorem encodeOfDecodeIsTheTransfer : Obligations.EncodeOfDecodeIsTheTransfer := by
  unfold Obligations.EncodeOfDecodeIsTheTransfer
  refine ⟨encode_decodeCommand, fun w => ?_, fun buf => ?_, decode_wf⟩
  · exact congrArg Transfer.stream BitVec.extractLsb'_append_extractLsb'
  · rw [decode, encode_decodeFrame]
    split
    case isTrue hshort =>
      obtain ⟨buf', hbuf', hbytes⟩ := encodeShort_shortRest buf
      exact ⟨buf', hbuf', hbytes, fun hlong => absurd hshort hlong⟩
    case isFalse hlong =>
      exact ⟨buf, encodeLong_longRest buf, fun _ => rfl, fun _ => rfl⟩

/-- Settles O38: the decoder run on eight fixed words. -/
theorem tableWordsDecodeRight : Obligations.TableWordsDecodeRight := by
  unfold Obligations.TableWordsDecodeRight
  decide

/-- Settles O40. -/
theorem reservedCodesAreRefused : Obligations.ReservedCodesAreRefused := by
  unfold Obligations.ReservedCodesAreRefused
  intro c s hop
  refine ⟨_, _, decodeCommand_of_reserved hop, ?_, rfl⟩
  rw [← toNat_nibbles, append_nibbles]
  rfl

end Sys2Proof
end

section
/-!
PROOFS of the encoding family, the rows of R321: a received frame passes the checks of R605 and R606 or
is dropped, and the frame that a slicing attempt ends with is the one that the decoder reads from the
frame buffer.
-/

namespace Sys2Proof.Machine

open Sys2Proof.Claims

/-! ### The downlink format of a frame -/

theorem shiftRight_toNat (b : Byte) : (b >>> 3).toNat = (b.extractLsb' 3 5).toNat := by
  rw [toNat_df, BitVec.toNat_ushiftRight, Nat.shiftRight_eq_div_pow]

theorem frameByte0_shiftRight (df : BitVec 5) (low3 : BitVec 3) :
    (frameByte0 df low3 >>> 3).toNat = df.toNat := by
  rw [shiftRight_toNat, df_frameByte0]

/-- R500, R501: a value that is no row's is INVALID, but for 25..31 under DF24_FAMILY. -/
theorem downlinkFormat_of_unknown (family : Bool) {b : Byte}
    (h : (b >>> 3).toNat ∉ [0, 4, 5, 11, 16, 17, 18, 20, 21, 24]) :
    downlinkFormat family b =
      if family && decide (25 ≤ (b >>> 3).toNat) then .df24 else .invalid := by
  unfold downlinkFormat
  split
  case h_11 => rfl
  all_goals simp_all

@[simp] theorem shortFrame_byte0 (df : BitVec 5) (low3 : BitVec 3) (r : Vector Byte 6) :
    (shortFrame df low3 r).byte 0 = frameByte0 df low3 := rfl

@[simp] theorem longFrame_byte0 (df : BitVec 5) (low3 : BitVec 3) (r : Vector Byte 13) :
    (longFrame df low3 r).byte 0 = frameByte0 df low3 := rfl

/-- A row's frame has the row's downlink format. -/
theorem downlinkFormat_of_receives {family : Bool} {i : Instr} {d : DownlinkFormat} {f : Frame}
    (h : Receives family i d f) : downlinkFormat family (f.byte 0) = d := by
  cases i with
  | df0 | df4 | df5 | df11 | df16 | df17 | df18 | df20 | df21 | df24 =>
    obtain ⟨rfl, rfl⟩ := h
    simp only [downlinkFormat, shortFrame_byte0, longFrame_byte0, frameByte0_shiftRight]
    rfl
  | dfInvalid df low3 r =>
    obtain ⟨hfamily, hdf, rfl, rfl⟩ := h
    have hunknown : df.toNat ∉ [0, 4, 5, 11, 16, 17, 18, 20, 21, 24] := by
      simp only [List.mem_cons, List.not_mem_nil, or_false]
      omega
    rw [longFrame_byte0, downlinkFormat_of_unknown _ (by rwa [frameByte0_shiftRight]),
      frameByte0_shiftRight, if_pos (by simp [hfamily, hdf])]
  | _ => exact h.elim

theorem wholeFrame_of_receives {family : Bool} {i : Instr} {d : DownlinkFormat} {f : Frame}
    (h : Receives family i d f) : wholeFrame f ∧ f.len = d.lenBytes := by
  cases i with
  | df0 low3 r | df4 low3 r | df5 low3 r | df11 low3 r =>
    obtain ⟨rfl, rfl⟩ := h
    exact ⟨wholeFrame_shortFrame _ low3 r, rfl⟩
  | df16 low3 r | df17 low3 r | df18 low3 r | df20 low3 r | df21 low3 r | df24 low3 r =>
    obtain ⟨rfl, rfl⟩ := h
    exact ⟨wholeFrame_longFrame _ low3 r, rfl⟩
  | dfInvalid df low3 r =>
    obtain ⟨-, -, rfl, rfl⟩ := h
    exact ⟨wholeFrame_longFrame _ low3 r, rfl⟩
  | _ => exact h.elim

theorem ne_invalid_of_receives {family : Bool} {i : Instr} {d : DownlinkFormat} {f : Frame}
    (h : Receives family i d f) : d ≠ .invalid := by
  rintro rfl
  obtain ⟨⟨hlen, -⟩, hd⟩ := wholeFrame_of_receives h
  have hzero : f.len = 0 := hd
  omega

/-! ### The checks on a received frame (R605, R606) -/

theorem append_eq_zero_iff {m n : Nat} (x : BitVec m) (y : BitVec n) :
    x ++ y = 0#(m + n) ↔ x = 0#m ∧ y = 0#n := by
  refine ⟨fun h => ⟨?_, ?_⟩, ?_⟩
  · rw [← BitVec.extractLsb'_append_eq_left (a := x) (b := y), h]
    simp
  · rw [← BitVec.extractLsb'_append_eq_right (a := x) (b := y), h]
    simp
  · rintro ⟨rfl, rfl⟩
    exact BitVec.zero_append_zero

theorem Frame.be3_eq_zero_iff (f : Frame) (a : Nat) :
    f.be3 a = 0#24 ↔ f.byte a = 0#8 ∧ f.byte (a + 1) = 0#8 ∧ f.byte (a + 2) = 0#8 := by
  refine (append_eq_zero_iff _ _).trans ?_
  rw [append_eq_zero_iff (f.byte a), and_assoc]

theorem tailZero_iff {f : Frame} (hf : wholeFrame f) : f.tailZero = true ↔ f.parity = 0#24 := by
  obtain ⟨hlen, -⟩ := hf
  have h2 : f.len - 3 + 1 = f.len - 2 := by omega
  have h1 : f.len - 3 + 2 = f.len - 1 := by omega
  rw [Frame.parity, Frame.be3_eq_zero_iff, h2, h1]
  simp [Frame.tailZero, and_assoc]

theorem execFrame_of_free {s : State} (hs : s.held = none) (f : Frame) :
    execFrame f s = .next (receiveFrame s f).2 := whenPortFree_of_free hs _

/-- A frame of an invalid format changes nothing, whether it waits at the port or is taken (R605). -/
theorem execFrame_of_invalid {s : State} {f : Frame}
    (hd : downlinkFormat s.cfg.df24Family (f.byte 0) = .invalid) : execFrame f s = .next s := by
  have hdrop : (receiveFrame s f).2 = s := by
    rcases receiveFrame_cases s f with ⟨-, h⟩ | ⟨-, -, h⟩ | ⟨-, hne, -⟩ | ⟨-, hne, -⟩
    case inr.inr.inl | inr.inr.inr => exact absurd hd hne
    all_goals rw [h]
  rcases whenPortFree_cases s (.next (receiveFrame s f).2) with ⟨-, -, h⟩ | ⟨-, h⟩
  · exact h
  · exact h.trans (congrArg _ hdrop)

section Receives

variable {s : State} {i : Instr} {d : DownlinkFormat} {f : Frame}

theorem exec_of_receives_dropped (hs : s.held = none) (hi : Receives s.cfg.df24Family i d f)
    (hdrop : f.byte 0 = 0#8 ∨ f.parity = 0#24) : exec i s = .next s := by
  rw [exec_of_receives hi, execFrame_of_free hs]
  rw [← tailZero_iff (wholeFrame_of_receives hi).1] at hdrop
  rcases receiveFrame_cases s f with ⟨-, h⟩ | ⟨-, -, h⟩ | ⟨-, -, -, h⟩ | ⟨h0, -, ht, -⟩
  case inr.inr.inr => simp [h0, ht] at hdrop
  all_goals rw [h]

theorem exec_of_receives_judged (hs : s.held = none) (hi : Receives s.cfg.df24Family i d f)
    (h0 : f.byte 0 ≠ 0#8) (hp : f.parity ≠ 0#24) : exec i s = .next (validate s f).2 := by
  rw [exec_of_receives hi, execFrame_of_free hs]
  rw [ne_eq, ← tailZero_iff (wholeFrame_of_receives hi).1] at hp
  have hd : downlinkFormat s.cfg.df24Family (f.byte 0) ≠ .invalid :=
    downlinkFormat_of_receives hi ▸ ne_invalid_of_receives hi
  rcases receiveFrame_cases s f with ⟨h, -⟩ | ⟨-, h, -⟩ | ⟨-, -, h, -⟩ | ⟨-, -, -, h⟩
  · exact absurd h h0
  · exact absurd h hd
  · exact absurd h hp
  · rw [h]

end Receives

/-- Settles O25. -/
theorem receivedFrameReachesTheTrustFilter : Obligations.ReceivedFrameReachesTheTrustFilter := by
  unfold Obligations.ReceivedFrameReachesTheTrustFilter
  refine ⟨fun s i d f hs hi => ?_, fun s df low3 rest hdf hfamily => ?_⟩
  · obtain ⟨hwhole, hlen⟩ := wholeFrame_of_receives hi
    exact ⟨downlinkFormat_of_receives hi, hwhole, hlen, exec_of_receives_dropped hs hi,
      exec_of_receives_judged hs hi⟩
  · have hinvalid : downlinkFormat s.cfg.df24Family ((longFrame df low3 rest).byte 0) = .invalid := by
      rw [longFrame_byte0, downlinkFormat_of_unknown _ (by rwa [frameByte0_shiftRight]),
        frameByte0_shiftRight, if_neg]
      rcases hfamily with h | h <;> simp [h]
    exact execFrame_of_invalid hinvalid

/-! ### The frame that the slicer leaves in the frame buffer -/

/-- Bits from the second byte on are stored outside f[0] (R603). -/
theorem storeBit_byte0 (buf : Vector Byte 14) {b : Nat} (hb : 8 ≤ b) (bit : Bool) :
    (storeBit buf b bit)[0] = buf[0] := by
  have hne : b / 8 ≠ 0 := by omega
  cases bit <;> simp [storeBit, Vector.getElem_setIfInBounds_ne, hne]

theorem sliceBits_byte0 (F : FpFormat) (ring : Vector Mag 240) (p : Fin 240) {start : Nat}
    (hstart : 8 ≤ start) (n : Nat) (r : SliceRegs) :
    (sliceBits F ring p start n r).fbuf[0] = r.fbuf[0] := by
  induction n with
  | zero => rfl
  | succ n ih => exact (storeBit_byte0 _ (by omega) _).trans ih

theorem bufFrame_byte0 {n : Nat} (hn : 0 < n) (buf : Vector Byte 14) :
    (bufFrame n buf).byte 0 = buf[0] := by
  simp [bufFrame, Frame.byte, hn]

/-- What a slicing attempt that ends with a frame says of the frame and of the frame buffer (R605,
R606). -/
theorem slice_frame {cfg : Config} {ring : Vector Mag 240} {p : Fin 240} {prevAvg : U64} {f : Frame}
    {regs : SliceRegs} (h : slice cfg ring p prevAvg = (.frame f, regs)) :
    ∃ d, d = downlinkFormat cfg.df24Family regs.fbuf[0] ∧ d ≠ .invalid ∧ regs.fbuf[0] ≠ 0#8 ∧
      f = bufFrame d.lenBytes regs.fbuf ∧ f.tailZero = false := by
  rcases slice_cases cfg ring p prevAvg _ rfl _ rfl _ rfl with
    ⟨-, hs⟩ | ⟨-, -, hs⟩ | ⟨-, -, -, hs⟩ | ⟨h0, hd, ht, hs⟩
  case inr.inr.inr =>
    rw [hs, Prod.mk.injEq, SliceVerdict.frame.injEq] at h
    obtain ⟨rfl, rfl⟩ := h
    refine ⟨_, ?_, hd, ?_, rfl, ht⟩
    · rw [sliceBits_byte0 _ _ _ le_rfl]
    · rwa [sliceBits_byte0 _ _ _ le_rfl]
  all_goals simp [hs] at h

theorem bufFrame_eq_shortFrame {buf : Payload} {df : BitVec 5}
    (h : (buf[0].extractLsb' 3 5).toNat = df.toNat) :
    bufFrame 7 buf = shortFrame df (buf[0].extractLsb' 0 3) (shortRest buf) := by
  have hdf : buf[0].extractLsb' 3 5 = df := BitVec.eq_of_toNat_eq h
  rw [← hdf, shortFrame, frameByte0_fields, bufFrame, ← payload_eq buf]
  rfl

theorem bufFrame_eq_longFrame {buf : Payload} {df : BitVec 5}
    (h : (buf[0].extractLsb' 3 5).toNat = df.toNat) :
    bufFrame 14 buf = longFrame df (buf[0].extractLsb' 0 3) (longRest buf) := by
  have hdf : buf[0].extractLsb' 3 5 = df := BitVec.eq_of_toNat_eq h
  rw [← hdf, longFrame, frameByte0_fields, bufFrame, ← payload_eq buf]
  rfl

/-- The instruction decoded from a frame buffer is the reception of the frame in it, under the downlink
format that the classifier gives its first byte (R321, R322, R500). -/
theorem receives_decodeFrame {family : Bool} {buf : Payload} {d : DownlinkFormat}
    (hd : downlinkFormat family buf[0] = d) (hne : d ≠ .invalid) :
    Receives family (decodeFrame buf) d (bufFrame d.lenBytes buf) := by
  simp only [decodeFrame]
  split
  case h_1 h | h_2 h | h_3 h | h_4 h =>
    simp only [downlinkFormat, shiftRight_toNat, h] at hd
    subst hd
    exact ⟨rfl, bufFrame_eq_shortFrame h⟩
  case h_5 h | h_6 h | h_7 h | h_8 h | h_9 h | h_10 h =>
    simp only [downlinkFormat, shiftRight_toNat, h] at hd
    subst hd
    exact ⟨rfl, bufFrame_eq_longFrame h⟩
  case h_11 =>
    rw [downlinkFormat_of_unknown _ (by rw [shiftRight_toNat]; simp_all), shiftRight_toNat] at hd
    split at hd
    case isTrue hfamily =>
      subst hd
      obtain ⟨hfam, hdf⟩ := (Bool.and_eq_true _ _).mp hfamily
      exact ⟨hfam, of_decide_eq_true hdf, rfl, bufFrame_eq_longFrame rfl⟩
    case isFalse => exact absurd hd.symm hne

theorem execStreamSample_of_ready {s : State} (hrun : s.run = true) (hs : s.held = none) (i q : Byte) :
    execStreamSample i q s = .next (sampleStep s i q).2 :=
  if_pos (by simp [streamReady, hrun, hs])

/-- Settles O29: the step ends in the trust filter, and the decoded row receives the same frame, which
passed the checks of R605 and R606 while it was sliced. -/
theorem streamSampleRunsTheFrameRow : Obligations.StreamSampleRunsTheFrameRow := by
  unfold Obligations.StreamSampleRunsTheFrameRow
  intro s w t i q f regs hrun hs hw hp hslice ht
  have hstep : sampleStep s i q = validate t f := by
    obtain rfl : w = writeSample s i q := hw
    have hwindow : sliceWindow (writeSample s i q) = (.frame f, t) := by
      subst ht
      exact congrArg (fun a => (a.1, { writeSample s i q with
        fbuf := a.2.fbuf, prevAvg := a.2.prevAvg })) hslice
    rw [sampleStep_eq, if_pos hp, hwindow]
  have hport : t.held = none := by rw [ht, hw, hs]
  have hcfg : t.cfg = s.cfg := by rw [ht, hw]
  obtain ⟨d, hd, hne, h0, rfl, htail⟩ := slice_frame hslice
  have hrow : Receives t.cfg.df24Family (decodeFrame regs.fbuf) d (bufFrame d.lenBytes regs.fbuf) :=
    receives_decodeFrame (hcfg ▸ hd.symm) hne
  have hbyte : (bufFrame d.lenBytes regs.fbuf).byte 0 ≠ 0#8 := by
    have hlen := DownlinkFormat.lenBytes_of_ne_invalid hne
    rwa [bufFrame_byte0 (by omega)]
  have hparity : (bufFrame d.lenBytes regs.fbuf).parity ≠ 0#24 := by
    rw [ne_eq, ← tailZero_iff (wholeFrame_of_receives hrow).1, htail]
    exact Bool.false_ne_true
  calc exec (.streamSample i q) s
      = .next (validate t (bufFrame d.lenBytes regs.fbuf)).2 := by
        rw [← hstep]
        exact execStreamSample_of_ready hrun hs i q
    _ = exec (decode (.frame regs.fbuf)) t := (exec_of_receives_judged hport hrow hbyte hparity).symm

end Sys2Proof.Machine
end

section
/-!
PROOFS of the magnitude family (41_magnitude.md R400-R402). First the table: a number passes the test of
R401 exactly if it is at most the rounded real formula, so the search that looks for the largest such
number ends with the formula, clamped. Then the command that reads the table.
-/

namespace Sys2Proof.Machine

open Sys2Proof.Claims

/-! ### The integer search of R401 -/

@[simp] theorem magSearch_zero (x acc : Nat) : magSearch x 0 acc = acc := rfl

/-- `delta` comes first because plain unfolding makes the kernel compare the two last arguments, and so
evaluate `magFits` on numbers with the literal `magC`, one successor at a time. -/
theorem magSearch_succ (x n acc : Nat) :
    magSearch x (n + 1) acc =
      magSearch x n (if magFits x (acc + 2 ^ n) then acc + 2 ^ n else acc) := by
  delta magSearch
  rfl

/-- A binary search for the largest number up to `N` that has `n` bits above `acc`. -/
theorem magSearch_eq_min {x : Nat} {N : ℤ} (hfits : ∀ k : Nat, magFits x k = true ↔ (k : ℤ) ≤ N)
    (n acc : Nat) (hacc : (acc : ℤ) ≤ N) :
    (magSearch x n acc : ℤ) = min N (acc + 2 ^ n - 1) := by
  induction n generalizing acc with
  | zero => simpa using hacc
  | succ n ih =>
    have hcast : ((acc + 2 ^ n : Nat) : ℤ) = acc + 2 ^ n := by push_cast; rfl
    have hpow : (0 : ℤ) < 2 ^ n := by positivity
    rw [magSearch_succ, pow_succ]
    split
    case isTrue htop =>
      rw [ih _ ((hfits _).mp htop), hcast]
      congr 1
      ring
    case isFalse htop =>
      rw [hfits, hcast] at htop
      rw [ih _ hacc, min_eq_left (by omega), min_eq_left (by omega)]

/-! ### The real formula of R400 -/

/-- v of R400, a real number. -/
noncomputable def magReal (x : Nat) : ℝ := 258.433254 * √x - 365.4798

/-- The test of R401: the constants are those of R400 in millionths, and the 1/2 of rounding is in C. -/
theorem magFits_iff_le_round (x k : Nat) :
    magFits x k = true ↔ (k : ℤ) ≤ round (magReal x) := by
  have hroot : ((magA : ℝ) * √x) ^ 2 = magA ^ 2 * x := by
    rw [mul_pow, Real.sq_sqrt (Nat.cast_nonneg x)]
  have hmillionths : (1000000 * k + magC : ℝ) ≤ magA * √x ↔ (k : ℝ) ≤ magReal x + 1 / 2 := by
    unfold magReal magA magC
    push_cast
    constructor <;> intro h <;> linarith
  calc magFits x k = true ↔ (1000000 * k + magC) ^ 2 ≤ magA ^ 2 * x := decide_eq_true_iff
    _ ↔ (1000000 * k + magC : ℝ) ^ 2 ≤ (magA * √x) ^ 2 := by rw [hroot]; norm_cast
    _ ↔ (1000000 * k + magC : ℝ) ≤ magA * √x := sq_le_sq₀ (by positivity) (by positivity)
    _ ↔ (k : ℤ) ≤ round (magReal x) := by
      rw [hmillionths, round_eq, Int.le_floor, Int.cast_natCast]

theorem magFits_zero {x : Nat} (hx : 2 ≤ x) : magFits x 0 = true := by
  have htwo : (1000000 * 0 + magC) ^ 2 ≤ magA ^ 2 * 2 := by norm_num [magA, magC]
  exact decide_eq_true (htwo.trans (Nat.mul_le_mul_left _ hx))

/-- From x = 2 on, where R401 defines n(x), its integer definition is the clamped formula. -/
theorem magOf_eq_clamp_round {x : Nat} (hx : 2 ≤ x) :
    (magOf x : ℤ) = max 0 (min 65535 (round (magReal x))) := by
  have hround : 0 ≤ round (magReal x) := (magFits_iff_le_round x 0).mp (magFits_zero hx)
  rw [magOf, magSearch_eq_min (magFits_iff_le_round x) 16 0 hround]
  norm_num
  omega

/-! ### The entries -/

theorem magX_eq (i q : Byte) :
    (magX i q : ℤ) = (2 * (i.toNat : ℤ) - 255) ^ 2 + (2 * (q.toNat : ℤ) - 255) ^ 2 :=
  Int.toNat_of_nonneg (by positivity)

/-- The square of an odd number is at least 1. -/
theorem one_le_sq_centred (n : Nat) : 1 ≤ (2 * (n : ℤ) - 255) ^ 2 := by
  rw [one_le_sq_iff_one_le_abs]
  exact Int.one_le_abs (by omega)

theorem two_le_magX (i q : Byte) : 2 ≤ magX i q := by
  have hx := magX_eq i q
  have hi := one_le_sq_centred i.toNat
  have hq := one_le_sq_centred q.toNat
  omega

/-- The clamp makes every value one of 16 bits. -/
theorem romMag_toNat (i q : Byte) : (romMag i q).toNat = magOf (magX i q) := by
  refine BitVec.toNat_ofNat _ _ |>.trans (Nat.mod_eq_of_lt ?_)
  have h := magOf_eq_clamp_round (two_le_magX i q)
  omega

/-- Settles O8. -/
theorem magnitudeTableIsTheFormula : Obligations.MagnitudeTableIsTheFormula := by
  unfold Obligations.MagnitudeTableIsTheFormula
  intro i q
  have hx : (magX i q : ℝ) = (2 * (i.toNat : ℝ) - 255) ^ 2 + (2 * (q.toNat : ℝ) - 255) ^ 2 := by
    exact_mod_cast congrArg (Int.cast : ℤ → ℝ) (magX_eq i q)
  rw [romMag_toNat, magOf_eq_clamp_round (two_le_magX i q), magReal, hx]

/-! ### Legal words of a command that does not use len (R301, R305) -/

/-- A header with an operation code and nothing else. -/
theorem hdr_eq_encodeHdr_iff {c : Command} {k : Byte} (hop : c.op = k) :
    c.hdr = encodeHdr k ⟨0#20, 0#4⟩ ↔ c.fields.rsv = 0#20 ∧ c.fields.len = 0#4 := by
  have hhdr : encodeHdr k c.fields = c.hdr := hop ▸ encodeHdr_fields c
  constructor
  · intro h
    have hfields : c.fields = ⟨0#20, 0#4⟩ := by
      rw [← fields_encodeHdr k ⟨0#20, 0#4⟩ c.imm c.payload, ← h]
    rw [hfields]
    exact ⟨rfl, rfl⟩
  · rintro ⟨hrsv, hlen⟩
    rw [← hhdr, ← hrsv, ← hlen]

/-- The high bits of a word are 0 if the low bits hold its whole value. -/
theorem extractHigh_eq_zero_iff {m n : Nat} (w : BitVec (m + n)) :
    w.extractLsb' n m = 0#m ↔ w.toNat < 2 ^ n := by
  have hw : w.toNat / 2 ^ n < 2 ^ m := by
    rw [Nat.div_lt_iff_lt_mul (Nat.two_pow_pos n), ← pow_add]
    exact w.isLt
  rw [← BitVec.toNat_inj, BitVec.extractLsb'_toNat, Nat.shiftRight_eq_div_pow, Nat.mod_eq_of_lt hw,
    BitVec.toNat_zero, Nat.div_eq_zero_iff_lt (Nat.two_pow_pos n)]

/-! ### MAG (R402) -/

theorem decode_mag {c : Command} (hop : c.op = 0x07#8) :
    decode (.command c) = .mag c.fields (c.imm.extractLsb' 16 16) (immI c.imm) (immQ c.imm) := by
  simp [decode, decodeCommand, hop]

theorem immI_toNat {imm : U32} (himm : imm.toNat < 2 ^ 16) : (immI imm).toNat = imm.toNat / 256 := by
  rw [immI, BitVec.extractLsb'_toNat, Nat.shiftRight_eq_div_pow]
  omega

theorem immQ_toNat (imm : U32) : (immQ imm).toNat = imm.toNat % 256 := by
  rw [immQ, BitVec.extractLsb'_toNat, Nat.shiftRight_zero]

/-- A MAG word is legal if its header is the operation code and its immediate word is I and Q. -/
theorem badImm_mag_eq_false_iff {c : Command} (hop : c.op = 0x07#8) :
    badImm c.fields 16 (c.imm.extractLsb' 16 16) = false ↔
      c.hdr = 0x07#32 ∧ c.imm.toNat < 2 ^ 16 := by
  have hhdr : c.hdr = 0x07#32 ↔ c.fields.rsv = 0#20 ∧ c.fields.len = 0#4 := hdr_eq_encodeHdr_iff hop
  have himm := extractHigh_eq_zero_iff (m := 16) (n := 16) c.imm
  rw [badImm_eq_false, legalImm, hhdr, ← himm]
  simp

/-- Settles O7. -/
theorem magReadsTheTable : Obligations.MagReadsTheTable := by
  unfold Obligations.MagReadsTheTable
  intro c s hop
  have hlegal := badImm_mag_eq_false_iff hop
  refine ⟨_, _, _, decode_mag hop, fun h => ⟨immI_toNat h.2, immQ_toNat c.imm, ?_⟩, fun h => ?_⟩
  · rw [exec, execMag, hlegal.mpr h, runCommand_legal, respond, BitVec.ofNat_toNat]
  · rw [← hlegal, Bool.not_eq_false] at h
    rw [exec, execMag, h, runCommand_bad]
    rfl

end Sys2Proof.Machine
end

section
/-!
PROOFS of the CRC family (42_crc.md R450-R462), over the ring GF(2)[X] modulo the generator. A
register stands for a residue class and is determined by it; one round multiplies by X, so the
syndrome is the class of the whole frame, and a flipped bit adds one power of X to it. These powers
are distinct as far as a frame is long, which locates a single error. All of them have the value 1
at X = 1, where the generator has a root; so two errors never look like one.
-/

namespace Sys2Proof.Machine

open Sys2Proof.Claims Polynomial

/-! ### Bit strings as polynomials over GF(2) -/

theorem bitsPoly_snoc (bits : List Bool) (b : Bool) :
    bitsPoly (bits ++ [b]) = bitsPoly bits * X + C (if b then 1 else 0) := by
  simp [bitsPoly]

theorem bitsPoly_append (high low : List Bool) :
    bitsPoly (high ++ low) = bitsPoly high * X ^ low.length + bitsPoly low := by
  induction low using List.reverseRecOn with
  | nil => simp [bitsPoly]
  | append_singleton low b ih =>
    rw [← List.append_assoc, bitsPoly_snoc, bitsPoly_snoc, ih, List.length_append,
      List.length_singleton]
    ring

theorem bitsPoly_map_xor (ks : List Nat) (f g : Nat → Bool) :
    bitsPoly (ks.map fun k => (f k ^^ g k)) = bitsPoly (ks.map f) + bitsPoly (ks.map g) := by
  induction ks using List.reverseRecOn with
  | nil => simp [bitsPoly]
  | append_singleton ks k ih =>
    have hxor (a b : Bool) : (if (a ^^ b) then 1 else 0 : ZMod 2) =
        (if a then 1 else 0) + (if b then 1 else 0) := by decide +revert
    simp only [List.map_append, List.map_singleton, bitsPoly_snoc, ih, hxor, C_add]
    ring

theorem coeff_bitsPoly (bits : List Bool) (i : Nat) :
    (bitsPoly bits).coeff i = if bits.reverse.getD i false then 1 else 0 := by
  induction bits using List.reverseRecOn generalizing i with
  | nil => simp [bitsPoly]
  | append_singleton bits b ih =>
    rw [bitsPoly_snoc, List.reverse_append]
    cases i with
    | zero => rw [coeff_add, coeff_mul_X_zero, coeff_C_zero, zero_add]; rfl
    | succ i => rw [coeff_add, coeff_mul_X, coeff_C_succ, add_zero, ih]; rfl

/-! ### Words as polynomials -/

section Words

variable {m n : Nat}

/-- The bits of a word, the highest first. -/
def wordBits (w : BitVec n) : List Bool := (List.range n).map fun k => w.getLsbD (n - 1 - k)

@[simp] theorem length_wordBits (w : BitVec n) : (wordBits w).length = n := by simp [wordBits]

theorem wordBits_append (high : BitVec m) (low : BitVec n) :
    wordBits (high ++ low) = wordBits high ++ wordBits low := by
  refine List.ext_getElem (by simp) fun i hi _ => ?_
  simp only [length_wordBits] at hi
  by_cases him : i < m
  · grind [wordBits]
  · grind [wordBits]

/-- A word as a polynomial: bit `i` is the coefficient of X^i. -/
noncomputable def wordPoly (w : BitVec n) : (ZMod 2)[X] := bitsPoly (wordBits w)

theorem coeff_wordPoly (w : BitVec n) (i : Nat) :
    (wordPoly w).coeff i = if w.getLsbD i then 1 else 0 := by
  have hbit : (wordBits w).reverse.getD i false = w.getLsbD i := by
    by_cases hi : i < n
    · grind [wordBits]
    · grind [wordBits]
  rw [wordPoly, coeff_bitsPoly, hbit]

theorem bitsPoly_regBits (c : U24) : bitsPoly (regBits c) = wordPoly c := rfl

theorem wordPoly_append (high : BitVec m) (low : BitVec n) :
    wordPoly (high ++ low) = wordPoly high * X ^ n + wordPoly low := by
  rw [wordPoly, wordBits_append, bitsPoly_append, length_wordBits, wordPoly, wordPoly]

theorem wordPoly_xor (v w : BitVec n) : wordPoly (v ^^^ w) = wordPoly v + wordPoly w := by
  simp only [wordPoly, wordBits, BitVec.getLsbD_xor, bitsPoly_map_xor]

@[simp] theorem wordPoly_zero : wordPoly 0#n = 0 := by
  ext i
  simp [coeff_wordPoly]

@[simp] theorem wordPoly_ofBool_true : wordPoly (BitVec.ofBool true) = 1 := by
  simp [wordPoly, wordBits, bitsPoly]

theorem wordPoly_twoPow {i : Nat} (hi : i < n) : wordPoly (BitVec.twoPow n i) = X ^ i := by
  ext j
  simp only [coeff_wordPoly, coeff_X_pow, BitVec.getLsbD_twoPow]
  grind

theorem degree_wordPoly_lt (w : BitVec n) : (wordPoly w).degree < n := by
  rw [degree_lt_iff_coeff_zero]
  intro i hi
  rw [coeff_wordPoly, BitVec.getLsbD_of_ge w i hi]
  rfl

theorem wordPoly_injective : Function.Injective (wordPoly (n := n)) := by
  intro v w h
  refine BitVec.eq_of_getLsbD_eq fun i _ => ?_
  have hi := congrArg (coeff · i) h
  simp only [coeff_wordPoly] at hi
  grind

/-- Multiplication by X^m shifts left by `m`; the `m` bits that leave the word stand above it. -/
theorem wordPoly_mul_X_pow (c : BitVec (m + n)) :
    wordPoly c * X ^ m = wordPoly (c.extractLsb' n m) * X ^ (m + n) + wordPoly (c <<< m) := by
  have hc : c = c.extractLsb' n m ++ c.extractLsb' 0 n := BitVec.extractLsb'_append_extractLsb'.symm
  have hshift : wordPoly (c <<< m) = wordPoly (c.extractLsb' 0 n ++ 0#m) := by
    ext i
    simp only [coeff_wordPoly, BitVec.getLsbD_append, BitVec.getLsbD_shiftLeft,
      BitVec.getLsbD_extractLsb']
    grind
  calc wordPoly c * X ^ m
      = (wordPoly (c.extractLsb' n m) * X ^ n + wordPoly (c.extractLsb' 0 n)) * X ^ m := by
        rw [← wordPoly_append, ← hc]
    _ = wordPoly (c.extractLsb' n m) * X ^ (m + n) + wordPoly (c <<< m) := by
        rw [hshift, wordPoly_append, wordPoly_zero]
        ring

end Words

/-! ### Residues modulo the generator -/

/-- The generator 0x1FFF409 as a polynomial (R450). -/
noncomputable def generator : (ZMod 2)[X] := bitsPoly generatorBits

theorem generator_eq : generator = X ^ 24 + wordPoly 0xFFF409#24 := by
  have hbits : generatorBits = [true] ++ wordBits 0xFFF409#24 := by decide
  rw [generator, hbits, bitsPoly_append, length_wordBits, wordPoly]
  simp [bitsPoly]

theorem generator_monic : generator.Monic := by
  rw [generator_eq]
  exact monic_X_pow_add (degree_wordPoly_lt _)

theorem degree_generator : generator.degree = (24 : Nat) := by
  have hlow : (wordPoly 0xFFF409#24).degree < (X ^ 24 : (ZMod 2)[X]).degree := by
    rw [degree_X_pow]
    exact degree_wordPoly_lt _
  rw [generator_eq, degree_add_eq_left_of_degree_lt hlow, degree_X_pow]

/-- The residue class modulo the generator that a word stands for. -/
noncomputable def residue {n : Nat} (w : BitVec n) : AdjoinRoot generator :=
  AdjoinRoot.mk generator (wordPoly w)

/-- The class of X. -/
noncomputable abbrev root : AdjoinRoot generator := AdjoinRoot.root generator

section Residues

variable {m n : Nat}

theorem residue_xor (v w : BitVec n) : residue (v ^^^ w) = residue v + residue w := by
  rw [residue, wordPoly_xor, map_add, residue, residue]

@[simp] theorem residue_zero : residue 0#n = 0 := by
  rw [residue, wordPoly_zero, map_zero]

theorem residue_append (high : BitVec m) (low : BitVec n) :
    residue (high ++ low) = residue high * root ^ n + residue low := by
  rw [residue, wordPoly_append, map_add, map_mul, map_pow, AdjoinRoot.mk_X, residue, residue]

theorem residue_mul_root_pow (c : BitVec (m + n)) :
    residue c * root ^ m = residue (c.extractLsb' n m) * root ^ (m + n) + residue (c <<< m) := by
  simpa [residue] using congrArg (AdjoinRoot.mk generator) (wordPoly_mul_X_pow c)

@[simp] theorem residue_ofBool_true : residue (BitVec.ofBool true) = 1 := by
  rw [residue, wordPoly_ofBool_true, map_one]

theorem residue_twoPow {i : Nat} (hi : i < n) : residue (BitVec.twoPow n i) = root ^ i := by
  rw [residue, wordPoly_twoPow hi, map_pow, AdjoinRoot.mk_X]

end Residues

/-- A register is determined by its class: its polynomial has a lower degree than the generator. -/
theorem residue_injective : Function.Injective (residue (n := 24)) := by
  intro c d h
  rw [residue, residue, AdjoinRoot.mk_eq_mk, CharTwo.sub_eq_add, ← wordPoly_xor] at h
  have hdegree : (wordPoly (c ^^^ d)).degree < generator.degree := by
    rw [degree_generator]
    exact degree_wordPoly_lt _
  have hzero : wordPoly (c ^^^ d) = wordPoly 0#24 := by
    rw [wordPoly_zero]
    exact by_contra fun hne => generator_monic.not_dvd_of_degree_lt hne hdegree h
  exact BitVec.xor_eq_zero_iff.mp (wordPoly_injective hzero)

/-- The generator without its leading term is what a round subtracts (R450): the class of X^24. -/
theorem residue_generatorLow : residue 0xFFF409#24 = root ^ 24 := by
  have h : wordPoly 0xFFF409#24 = generator + X ^ 24 := by
    rw [generator_eq, add_right_comm, CharTwo.add_self_eq_zero, zero_add]
  rw [residue, h, map_add, AdjoinRoot.mk_self, zero_add, map_pow, AdjoinRoot.mk_X]

/-! ### The engine computes residues -/

theorem residue_crcRound (c : U24) : residue (crcRound c) = residue c * root := by
  have hshift := residue_mul_root_pow (m := 1) (n := 23) c
  have htop : c.extractLsb' 23 1 = BitVec.ofBool c.msb := by
    rw [BitVec.msb_eq_getLsbD_last]
    ext i hi
    grind
  rw [htop, pow_one] at hshift
  rw [crcRound, hshift]
  cases c.msb with
  | true =>
    rw [if_pos rfl, residue_xor, residue_generatorLow, residue_ofBool_true]
    ring
  | false =>
    have hzero : residue (BitVec.ofBool false) = 0 := residue_zero
    rw [if_neg Bool.false_ne_true, hzero]
    ring

theorem residue_romCrc (n : Byte) : residue (romCrc n) = residue n * root ^ 24 := by
  have hzero : residue (0 : BitVec 16) = 0 := residue_zero
  simp only [romCrc, residue_crcRound, residue_append, hzero]
  ring

theorem residue_crcStep (c : U24) (b : Byte) :
    residue (crcStep c b) = residue c * root ^ 8 + residue b * root ^ 24 := by
  have hshift := residue_mul_root_pow (m := 8) (n := 16) c
  rw [crcStep, residue_xor, residue_romCrc, residue_xor, hshift]
  ring

/-! ### Bytes in air order -/

/-- The residue class of a byte list in air order. -/
noncomputable def airResidue (bytes : List Byte) : AdjoinRoot generator :=
  AdjoinRoot.mk generator (bitsPoly (airBits bytes))

theorem length_airBits (bytes : List Byte) : (airBits bytes).length = 8 * bytes.length := by
  simp [airBits, List.length_flatMap, Nat.mul_comm]

theorem airResidue_append (xs ys : List Byte) :
    airResidue (xs ++ ys) = airResidue xs * root ^ (8 * ys.length) + airResidue ys := by
  have happ : airBits (xs ++ ys) = airBits xs ++ airBits ys := List.flatMap_append
  rw [airResidue, happ, bitsPoly_append, length_airBits, map_add, map_mul, map_pow, AdjoinRoot.mk_X]
  rfl

@[simp] theorem airResidue_nil : airResidue [] = 0 := by
  simp [airResidue, airBits, bitsPoly]

theorem airResidue_singleton (b : Byte) : airResidue [b] = residue b := by
  have hbits : airBits [b] = wordBits b := List.flatMap_singleton _ _
  rw [airResidue, hbits]
  rfl

theorem airResidue_cons (b : Byte) (bytes : List Byte) :
    airResidue (b :: bytes) = residue b * root ^ (8 * bytes.length) + airResidue bytes := by
  rw [← List.singleton_append, airResidue_append, airResidue_singleton]

/-- The loop of R451 leaves the class of D(x) x^24. -/
theorem residue_crcBytes (bytes : List Byte) :
    residue (crcBytes bytes) = airResidue bytes * root ^ 24 := by
  induction bytes using List.reverseRecOn with
  | nil =>
    rw [airResidue_nil, zero_mul]
    exact residue_zero
  | append_singleton bytes b ih =>
    have hfold : crcBytes (bytes ++ [b]) = crcStep (crcBytes bytes) b := by simp [crcBytes]
    rw [hfold, residue_crcStep, ih, airResidue_append, airResidue_singleton, List.length_singleton]
    ring

theorem residue_checksum24 (f : Frame) :
    residue (checksum24 f) = airResidue (f.bytes.take (f.len - 3)) * root ^ 24 :=
  residue_crcBytes _

theorem bytes_eq_data_parity {f : Frame} (hf : wholeFrame f) :
    f.bytes = f.bytes.take (f.len - 3) ++
      [f.byte (f.len - 3), f.byte (f.len - 3 + 1), f.byte (f.len - 3 + 2)] := by
  obtain ⟨hlen, hbytes⟩ := hf
  refine List.ext_getElem (by grind) fun i hi _ => ?_
  simp only [List.getElem_append, Frame.byte]
  grind

/-- The syndrome is the remainder of the whole frame, its parity bytes included (R452). -/
theorem residue_syndrome24 {f : Frame} (hf : wholeFrame f) :
    residue (syndrome24 f) = airResidue f.bytes := by
  rw [bytes_eq_data_parity hf, syndrome24, residue_xor, residue_checksum24, airResidue_append]
  simp only [Frame.parity, Frame.be3, residue_append, airResidue_cons, airResidue_nil,
    List.length_cons, List.length_nil]
  ring

/-! ### One flipped bit -/

theorem airResidue_modify_xor {bytes : List Byte} {i : Nat} (hi : i < bytes.length) (mask : Byte) :
    airResidue (bytes.modify i (· ^^^ mask)) =
      airResidue bytes + residue mask * root ^ (8 * (bytes.length - 1 - i)) := by
  induction bytes generalizing i with
  | nil => exact absurd hi (Nat.not_lt_zero i)
  | cons b bytes ih =>
    cases i with
    | zero =>
      rw [List.modify_zero_cons, airResidue_cons, airResidue_cons, residue_xor, List.length_cons,
        Nat.add_sub_cancel, Nat.sub_zero]
      ring
    | succ i =>
      rw [List.modify_succ_cons, airResidue_cons, airResidue_cons, ih (Nat.lt_of_succ_lt_succ hi),
        List.length_modify, List.length_cons]
      have hexp : bytes.length + 1 - 1 - (i + 1) = bytes.length - 1 - i := by omega
      rw [hexp]
      ring

theorem bitMask_eq_twoPow (k : Nat) : bitMask k = BitVec.twoPow 8 (7 - k % 8) := by
  have h : ∀ r < 8, 0x80#8 >>> r = BitVec.twoPow 8 (7 - r) := by decide
  exact h _ (Nat.mod_lt k (by decide))

theorem airResidue_flip {f : Frame} {k : Nat} (hk : k < 8 * f.bytes.length) :
    airResidue (f.flip k).bytes = airResidue f.bytes + root ^ (8 * f.bytes.length - 1 - k) := by
  have hmask : residue (bitMask k) = root ^ (7 - k % 8) := by
    rw [bitMask_eq_twoPow, residue_twoPow (by omega)]
  have hexp : 7 - k % 8 + 8 * (f.bytes.length - 1 - k / 8) = 8 * f.bytes.length - 1 - k := by omega
  rw [Frame.flip, airResidue_modify_xor (by omega), hmask, ← pow_add, hexp]

theorem wholeFrame_flip {f : Frame} (hf : wholeFrame f) (k : Nat) : wholeFrame (f.flip k) := by
  obtain ⟨hlen, hbytes⟩ := hf
  exact ⟨hlen, (List.length_modify _ _ _).trans hbytes⟩

/-- A flipped bit adds one power of X to the syndrome (R455 item 1). -/
theorem residue_syndrome24_flip {f : Frame} {k : Nat} (hf : wholeFrame f) (hk : k < 8 * f.len) :
    residue (syndrome24 (f.flip k)) = residue (syndrome24 f) + root ^ (8 * f.len - 1 - k) := by
  have hbytes : f.bytes.length = f.len := hf.2
  rw [residue_syndrome24 (wholeFrame_flip hf k), residue_syndrome24 hf,
    airResidue_flip (hbytes ▸ hk), hbytes]

theorem residue_romSyn {l k : Nat} (hl : l = 7 ∨ l = 14) (hk5 : 5 ≤ k) (hk : k < 8 * l) :
    residue (romSyn l k) = root ^ (8 * l - 1 - k) := by
  have hzero : wholeFrame (zeroFrame l) := ⟨hl, List.length_replicate⟩
  have hsyn : syndrome24 (zeroFrame l) = 0#24 := by
    rcases hl with rfl | rfl <;> decide
  rw [romSyn, if_neg (by omega), residue_syndrome24_flip hzero hk, hsyn, residue_zero, zero_add]
  rfl

/-- The entry of a position is the syndrome that an error there gives (R454). -/
theorem syndrome24_flip {f : Frame} {k : Nat} (hf : wholeFrame f) (hsyn : syndrome24 f = 0#24)
    (hk5 : 5 ≤ k) (hk : k < 8 * f.len) : syndrome24 (f.flip k) = romSyn f.len k := by
  refine residue_injective ?_
  rw [residue_syndrome24_flip hf hk, hsyn, residue_zero, zero_add, residue_romSyn hf.1 hk5 hk]

/-! ### The value of a residue at 1 -/

theorem eval_one_bitsPoly (bits : List Bool) : (bitsPoly bits).eval 1 = bits.count true := by
  induction bits using List.reverseRecOn with
  | nil => simp [bitsPoly]
  | append_singleton bits b ih => cases b <;> simp [bitsPoly_snoc, ih]

theorem eval_one_generator : generator.eval₂ (RingHom.id (ZMod 2)) 1 = 0 := by
  have hweight : generatorBits.count true = 16 := by decide
  rw [eval₂_id, generator, eval_one_bitsPoly, hweight]
  decide

/-- The value of a residue class at X = 1, the parity of its bits: the generator has the root 1. -/
noncomputable def atOne : AdjoinRoot generator →+* ZMod 2 :=
  AdjoinRoot.lift (RingHom.id (ZMod 2)) 1 eval_one_generator

theorem atOne_root_pow (n : Nat) : atOne (root ^ n) = 1 := by
  rw [map_pow, atOne, AdjoinRoot.lift_root, one_pow]

theorem atOne_residue_romSyn {l k : Nat} (hl : l = 7 ∨ l = 14) (hk5 : 5 ≤ k) (hk : k < 8 * l) :
    atOne (residue (romSyn l k)) = 1 := by
  rw [residue_romSyn hl hk5 hk, atOne_root_pow]

theorem atOne_residue_syndrome24_flip {f : Frame} {k : Nat} (hf : wholeFrame f)
    (hk : k < 8 * f.len) :
    atOne (residue (syndrome24 (f.flip k))) = atOne (residue (syndrome24 f)) + 1 := by
  rw [residue_syndrome24_flip hf hk, map_add, atOne_root_pow]

/-! ### The entries of the syndrome tables (R455 item 5) -/

/-- The residues of X^0 to X^111 are distinct: 112 registers, one round apart. -/
theorem nodup_rounds : (List.iterate crcRound 1#24 112).Nodup := by decide +kernel

theorem residue_iterate_crcRound (n : Nat) : residue (crcRound^[n] 1#24) = root ^ n := by
  induction n with
  | zero =>
    have hone : 1#24 = 0#23 ++ BitVec.ofBool true := rfl
    rw [Function.iterate_zero_apply, hone, residue_append, residue_zero, residue_ofBool_true,
      zero_mul, zero_add, pow_zero]
  | succ n ih => rw [Function.iterate_succ_apply', residue_crcRound, ih, pow_succ]

theorem root_pow_inj {m n : Nat} (hm : m < 112) (hn : n < 112) (h : root ^ m = root ^ n) :
    m = n := by
  rw [← residue_iterate_crcRound, ← residue_iterate_crcRound] at h
  have hreg := residue_injective h
  refine (nodup_rounds.getElem_inj_iff (hi := by simpa) (hj := by simpa)).mp ?_
  simpa only [List.getElem_iterate] using hreg

theorem romSyn_inj {l j k : Nat} (hl : l = 7 ∨ l = 14) (hj5 : 5 ≤ j) (hj : j < 8 * l)
    (hk5 : 5 ≤ k) (hk : k < 8 * l) (h : romSyn l j = romSyn l k) : j = k := by
  have hres := congrArg residue h
  rw [residue_romSyn hl hj5 hj, residue_romSyn hl hk5 hk] at hres
  have hexp := root_pow_inj (by omega) (by omega) hres
  omega

theorem romSyn_ne_zero {l k : Nat} (hl : l = 7 ∨ l = 14) (hk5 : 5 ≤ k) (hk : k < 8 * l) :
    romSyn l k ≠ 0#24 := by
  intro h
  have hone := atOne_residue_romSyn hl hk5 hk
  rw [h, residue_zero, map_zero] at hone
  exact zero_ne_one hone

/-! ### The two frame lengths -/

theorem validLen_iff {l : Nat} : validLen l = true ↔ l = 7 ∨ l = 14 := by
  simp [validLen]

section Lengths

variable {f : Frame}

theorem checksum_of_validLen (hl : f.len = 7 ∨ f.len = 14) :
    checksum f = (checksum24 f).setWidth 32 :=
  if_pos (validLen_iff.mpr hl)

theorem syndrome_of_validLen (hl : f.len = 7 ∨ f.len = 14) :
    syndrome f = (syndrome24 f).setWidth 32 :=
  if_pos (validLen_iff.mpr hl)

theorem checksum_of_badLen (hl : ¬(f.len = 7 ∨ f.len = 14)) : checksum f = 0x0F000000#32 :=
  if_neg (mt validLen_iff.mp hl)

theorem syndrome_of_badLen (hl : ¬(f.len = 7 ∨ f.len = 14)) : syndrome f = 0x0F000000#32 :=
  if_neg (mt validLen_iff.mp hl)

end Lengths

/-! ### error_bit -/

theorem eq_setWidth32_iff {s : U32} {v : U24} : s = v.setWidth 32 ↔ s.toNat = v.toNat := by
  rw [← BitVec.toNat_inj, BitVec.toNat_setWidth_of_le (by decide)]

theorem setWidth32_inj {v w : U24} (h : v.setWidth 32 = w.setWidth 32) : v = w := by
  rw [eq_setWidth32_iff, BitVec.toNat_setWidth_of_le (by decide)] at h
  exact BitVec.eq_of_toNat_eq h

/-- The set hits of R453, in rising order. -/
def hits (l : Nat) (s : U32) : List Nat :=
  (List.range (8 * l)).filter fun i => decide (5 ≤ i) && (romSyn l i).setWidth 32 == s

theorem mem_hits {l i : Nat} {s : U32} :
    i ∈ hits l s ↔ i < 8 * l ∧ 5 ≤ i ∧ s = (romSyn l i).setWidth 32 := by
  rw [hits, List.mem_filter, List.mem_range, Bool.and_eq_true, decide_eq_true_iff, beq_iff_eq,
    eq_comm (a := s)]

/-- R453: a position is reported if it is the single match of a nonzero word. -/
theorem errorBit_eq_some_iff_hits {l e : Nat} {s : U32} :
    errorBit l s = some e ↔ (l = 7 ∨ l = 14) ∧ s ≠ 0#32 ∧ hits l s = [e] := by
  have hskip : (!validLen l || s == 0#32) = true ↔ ¬((l = 7 ∨ l = 14) ∧ s ≠ 0#32) := by
    simp [← validLen_iff, imp_iff_not_or]
  rw [errorBit, errorBitMasked, hits, ← and_assoc]
  simp only [BitVec.and_allOnes]
  split
  case isTrue h => simp [hskip.mp h]
  case isFalse h =>
    rw [hskip, not_not] at h
    split
    case h_1 i hi => simp [h, hi]
    case h_2 hno => exact iff_of_false (Option.some_ne_none e).symm fun ⟨_, he⟩ => hno e he

/-- An entry is the entry of its own position only (R455 item 5). -/
theorem hits_romSyn {l e : Nat} (hl : l = 7 ∨ l = 14) (he5 : 5 ≤ e) (he : e < 8 * l) :
    hits l ((romSyn l e).setWidth 32) = [e] := by
  have hnodup : (hits l ((romSyn l e).setWidth 32)).Nodup := List.nodup_range.filter _
  refine List.perm_singleton.mp
    ((List.perm_ext_iff_of_nodup hnodup (List.nodup_singleton e)).mpr fun i => ?_)
  rw [mem_hits, List.mem_singleton]
  constructor
  · rintro ⟨hi, hi5, h⟩
    exact romSyn_inj hl hi5 hi he5 he (setWidth32_inj h.symm)
  · rintro rfl
    exact ⟨he, he5, rfl⟩

/-- R453 in one line: the answer is the position whose entry is the syndrome. -/
theorem errorBit_eq_some_iff {l e : Nat} {s : U32} :
    errorBit l s = some e ↔
      (l = 7 ∨ l = 14) ∧ 5 ≤ e ∧ e < 8 * l ∧ s = (romSyn l e).setWidth 32 := by
  rw [errorBit_eq_some_iff_hits]
  constructor
  · rintro ⟨hl, -, hhits⟩
    obtain ⟨he, he5, hs⟩ := mem_hits.mp (hhits ▸ List.mem_singleton_self e)
    exact ⟨hl, he5, he, hs⟩
  · rintro ⟨hl, he5, he, rfl⟩
    have hne : (romSyn l e).setWidth 32 ≠ (0#24).setWidth 32 := fun h =>
      romSyn_ne_zero hl he5 he (setWidth32_inj h)
    exact ⟨hl, hne, hits_romSyn hl he5 he⟩

/-- A word for which no position is the answer is located nowhere (R453). -/
theorem errorBit_eq_none {l : Nat} {s : U32}
    (h : l ≠ 7 ∧ l ≠ 14 ∨ s = 0#32 ∨
      ∀ e : Nat, 5 ≤ e → e < 8 * l → s.toNat ≠ (romSyn l e).toNat) : errorBit l s = none := by
  refine Option.eq_none_iff_forall_ne_some.mpr fun e he => ?_
  obtain ⟨hl, he5, he, hs⟩ := errorBit_eq_some_iff.mp he
  rcases h with ⟨h7, h14⟩ | hzero | hmiss
  · exact hl.elim h7 h14
  · exact romSyn_ne_zero hl he5 he (setWidth32_inj (hs.symm.trans hzero))
  · exact hmiss e he5 he (eq_setWidth32_iff.mp hs)

/-- A syndrome with the value 0 at X = 1 is no table entry. -/
theorem errorBit_of_even {f : Frame} (hf : wholeFrame f)
    (heven : atOne (residue (syndrome24 f)) = 0) : errorBit f.len (syndrome f) = none := by
  rw [Option.eq_none_iff_forall_ne_some]
  intro e h
  obtain ⟨hl, he5, he, hs⟩ := errorBit_eq_some_iff.mp h
  rw [syndrome_of_validLen hf.1] at hs
  rw [setWidth32_inj hs, atOne_residue_romSyn hl he5 he] at heven
  exact one_ne_zero heven

/-! ### The laws of the engine -/

/-- Settles O15: the class that the loop leaves, read as a congruence. -/
theorem checksumIsTheRemainder : Obligations.ChecksumIsTheRemainder := by
  unfold Obligations.ChecksumIsTheRemainder
  intro f hf
  obtain ⟨hlen, -⟩ := hf
  refine ⟨checksum_of_validLen hlen, ?_⟩
  have hres : AdjoinRoot.mk generator (bitsPoly (airBits (f.bytes.take (f.len - 3))) * X ^ 24) =
      AdjoinRoot.mk generator (bitsPoly (regBits (checksum24 f))) := by
    rw [map_mul, map_pow, AdjoinRoot.mk_X, bitsPoly_regBits]
    exact (residue_checksum24 f).symm
  obtain ⟨quotient, hq⟩ := AdjoinRoot.mk_eq_mk.mp hres
  exact ⟨quotient, sub_eq_iff_eq_add.mp (hq.trans (mul_comm generator quotient))⟩

/-- Settles O16: the checksum does not read the parity bytes and cancels. -/
theorem generatedParityCarriesTheValue : Obligations.GeneratedParityCarriesTheValue := by
  unfold Obligations.GeneratedParityCarriesTheValue
  intro f g a _ hg hlen hdata hparity
  have hchecksum : checksum24 g = checksum24 f := by rw [checksum24, hlen, hdata, checksum24]
  have hsyn : syndrome24 g = a := by
    rw [syndrome24, hchecksum, hparity, ← BitVec.xor_assoc, BitVec.xor_self, BitVec.zero_xor]
  exact ⟨hsyn, by rw [syndrome_of_validLen hg.1, hsyn]⟩

/-- Settles O17: one error by the entry of its position, two errors by the value at X = 1. -/
theorem errorBitLocatesSingleErrorsOnly : Obligations.ErrorBitLocatesSingleErrorsOnly := by
  unfold Obligations.ErrorBitLocatesSingleErrorsOnly
  constructor
  · intro f k hf hsyn hk5 hk
    have hflip := syndrome24_flip hf hsyn hk5 hk
    refine ⟨hflip, ?_⟩
    rw [syndrome_of_validLen (wholeFrame_flip hf k).1, hflip]
    exact errorBit_eq_some_iff.mpr ⟨hf.1, hk5, hk, rfl⟩
  · intro f j k hf hsyn hjk hk
    have hfj := wholeFrame_flip hf j
    refine errorBit_of_even (wholeFrame_flip hfj k) ?_
    rw [atOne_residue_syndrome24_flip hfj hk, atOne_residue_syndrome24_flip hf (hjk.trans hk), hsyn,
      residue_zero, map_zero]
    decide

/-! ### The commands -/

theorem badRsv_fields_eq_false_iff (c : Command) : badRsv c.fields = false ↔ reservedZero c := by
  simp [badRsv, reservedZero, Command.fields]

theorem badLenForm_fields_eq_false_iff (c : Command) :
    badLenForm c.fields c.imm = false ↔ reservedZero c ∧ c.imm = 0#32 := by
  rw [badLenForm, Bool.or_eq_false_iff, badRsv_fields_eq_false_iff, bne_eq_false_iff_eq]

/-- A command that raises no Misuse answers exactly if its legality check passes (R753). -/
theorem runCommand_answer {bad : Bool} {legal : Prop} (hbad : bad = false ↔ legal) (s : State)
    (v : U32) :
    (legal → runCommand bad false (respond s v) s = .next (answered s v)) ∧
    (¬legal → runCommand bad false (respond s v) s = .next (refusedIllegal s)) := by
  rw [← hbad]
  cases bad with
  | false => exact ⟨fun _ => rfl, fun h => absurd rfl h⟩
  | true => exact ⟨fun h => absurd h.symm Bool.false_ne_true, fun _ => rfl⟩

theorem exec_crc (c : Command) (s : State) :
    (reservedZero c ∧ c.imm = 0#32 → exec (.crc c.fields c.imm c.payload) s =
      .next (answered s (checksum (commandFrame c.fields.len c.payload)))) ∧
    (¬(reservedZero c ∧ c.imm = 0#32) →
      exec (.crc c.fields c.imm c.payload) s = .next (refusedIllegal s)) :=
  runCommand_answer (badLenForm_fields_eq_false_iff c) s _

theorem exec_syn (c : Command) (s : State) :
    (reservedZero c ∧ c.imm = 0#32 → exec (.syn c.fields c.imm c.payload) s =
      .next (answered s (syndrome (commandFrame c.fields.len c.payload)))) ∧
    (¬(reservedZero c ∧ c.imm = 0#32) →
      exec (.syn c.fields c.imm c.payload) s = .next (refusedIllegal s)) :=
  runCommand_answer (badLenForm_fields_eq_false_iff c) s _

theorem exec_errbit (c : Command) (s : State) :
    (reservedZero c → exec (.errbit c.fields c.imm) s =
      .next (answered s (errorBitWord (errorBit (len c) c.imm)))) ∧
    (¬reservedZero c → exec (.errbit c.fields c.imm) s = .next (refusedIllegal s)) :=
  runCommand_answer (badRsv_fields_eq_false_iff c) s _

theorem decode_crc {c : Command} (hop : c.op = 0x08#8) :
    decode (.command c) = .crc c.fields c.imm c.payload := by
  simp [decode, decodeCommand, hop]

theorem decode_syn {c : Command} (hop : c.op = 0x09#8) :
    decode (.command c) = .syn c.fields c.imm c.payload := by
  simp [decode, decodeCommand, hop]

theorem decode_errbit {c : Command} (hop : c.op = 0x0A#8) :
    decode (.command c) = .errbit c.fields c.imm := by
  simp [decode, decodeCommand, hop]

/-! ### The frame of a command -/

section CommandFrame

variable (l : BitVec 4) (p : Payload)

theorem byte_commandFrame {l : BitVec 4} {j : Nat} (hl : j < l.toNat) (hj : j < 14) :
    (commandFrame l p).byte j = p[j] := by
  simp [commandFrame, Frame.byte, List.getD_eq_getElem?_getD, hl, hj]

theorem checksum24_commandFrame :
    checksum24 (commandFrame l p) = crcBytes (p.toList.take (l.toNat - 3)) := by
  rw [checksum24, commandFrame, List.take_take, min_eq_left (Nat.sub_le _ _)]

/-- The syndrome of a command's frame whose parity bytes are P[j], P[j+1] and P[j+2]. -/
theorem syndrome24_commandFrame {j : Nat} (hl : l.toNat = j + 3) (hj : j + 2 < 14) :
    syndrome24 (commandFrame l p) =
      crcBytes (p.toList.take j) ^^^ (p[j] ++ p[j + 1] ++ p[j + 2] : BitVec (8 + 8 + 8)) := by
  have hstart : (commandFrame l p).len - 3 = j := Nat.sub_eq_of_eq_add hl
  rw [syndrome24, checksum24_commandFrame, Frame.parity, hstart, Frame.be3, hl, Nat.add_sub_cancel,
    byte_commandFrame p (by omega) (by omega), byte_commandFrame p (by omega) (by omega),
    byte_commandFrame p (by omega) hj]

end CommandFrame

/-! ### The statements about the commands -/

/-- Settles O9. -/
theorem crcAnswersTheChecksum : Obligations.CrcAnswersTheChecksum := by
  unfold Obligations.CrcAnswersTheChecksum
  intro c s hop
  obtain ⟨hanswer, hrefuse⟩ := exec_crc c s
  refine ⟨decode_crc hop, ?_, ?_, hrefuse⟩
  · rintro ⟨hrsv, himm, hlen⟩
    rw [hanswer ⟨hrsv, himm⟩, checksum_of_validLen hlen, checksum24_commandFrame]
    rfl
  · rintro ⟨hrsv, himm, h7, h14⟩
    rw [hanswer ⟨hrsv, himm⟩, checksum_of_badLen (not_or.mpr ⟨h7, h14⟩)]
    rfl

/-- Settles O10. -/
theorem synAnswersTheSyndrome : Obligations.SynAnswersTheSyndrome := by
  unfold Obligations.SynAnswersTheSyndrome
  intro c s hop
  obtain ⟨hanswer, hrefuse⟩ := exec_syn c s
  refine ⟨decode_syn hop, ?_, ?_, ?_, hrefuse⟩
  · rintro ⟨hrsv, himm, hlen⟩
    rw [hanswer ⟨hrsv, himm⟩, syndrome_of_validLen (.inl hlen),
      syndrome24_commandFrame c.fields.len c.payload (j := 4) hlen (by decide)]
    rfl
  · rintro ⟨hrsv, himm, hlen⟩
    rw [hanswer ⟨hrsv, himm⟩, syndrome_of_validLen (.inr hlen),
      syndrome24_commandFrame c.fields.len c.payload (j := 11) hlen (by decide)]
    rfl
  · rintro ⟨hrsv, himm, h7, h14⟩
    rw [hanswer ⟨hrsv, himm⟩, syndrome_of_badLen (not_or.mpr ⟨h7, h14⟩)]
    rfl

/-- Settles O11, by what error_bit answers (R453). -/
theorem errbitAnswersTheMatchingPosition : Obligations.ErrbitAnswersTheMatchingPosition := by
  unfold Obligations.ErrbitAnswersTheMatchingPosition
  intro c s hop
  obtain ⟨hanswer, hrefuse⟩ := exec_errbit c s
  refine ⟨decode_errbit hop, ?_, ?_, hrefuse⟩
  · rintro e ⟨hrsv, hlen, -, he5, he, himm⟩
    rw [hanswer hrsv,
      errorBit_eq_some_iff.mpr ⟨hlen, he5, he, eq_setWidth32_iff.mpr himm⟩]
    rfl
  · rintro ⟨hrsv, hno⟩
    rw [hanswer hrsv, errorBit_eq_none hno]
    rfl

end Sys2Proof.Machine
end

section
/-!
PROOFS of the classifier family (43_classifier.md R500-R506): GETDF and GETICAO, get_icao clause by
clause, and what it answers for a frame with wrong bits. First what the downlink format and the masked
error_bit answer, then what get_icao answers for each class of frames, then the effect of flipped bits.
-/

namespace Sys2Proof.Machine

open Sys2Proof.Claims

/-! ### The downlink format as a number (R500) -/

theorem ushiftRight_three_toNat (b : Byte) : (b >>> 3).toNat = b.toNat / 8 :=
  (shiftRight_toNat b).trans (toNat_df b)

theorem downlinkFormat_of_value {family : Bool} {b : Byte} {d : DownlinkFormat} (hne : d ≠ .invalid)
    (hd : b.toNat / 8 = d.value.toNat) : downlinkFormat family b = d := by
  rw [downlinkFormat, ushiftRight_three_toNat, hd]
  cases d with
  | invalid => exact absurd rfl hne
  | df0 | df4 | df5 | df11 | df16 | df17 | df18 | df20 | df21 | df24 => rfl

/-- The ten numbers of R500 are the values of the ten formats. -/
theorem exists_value_eq {n : Nat} (hn : n ∈ [0, 4, 5, 11, 16, 17, 18, 20, 21, 24]) :
    ∃ d : DownlinkFormat, d ≠ .invalid ∧ n = d.value.toNat := by
  have hmap : [0, 4, 5, 11, 16, 17, 18, 20, 21, 24] =
      [DownlinkFormat.df0, .df4, .df5, .df11, .df16, .df17, .df18, .df20, .df21, .df24].map
        fun d => d.value.toNat := rfl
  rw [hmap, List.mem_map] at hn
  obtain ⟨d, hd, hvalue⟩ := hn
  refine ⟨d, ?_, hvalue.symm⟩
  rintro rfl
  simp at hd

/-! ### GETDF (R502) -/

theorem badPlain_fields_eq_false_iff {c : Command} {k : Byte} (hop : c.op = k) :
    badPlain c.fields c.imm = false ↔ c.hdr = encodeHdr k ⟨0#20, 0#4⟩ ∧ c.imm = 0#32 := by
  rw [hdr_eq_encodeHdr_iff hop, badPlain_eq_false, legalPlain]
  simp

theorem decode_getdf {c : Command} (hop : c.op = 0x0B#8) :
    decode (.command c) = .getdf c.fields c.imm c.payload := by
  simp [decode, decodeCommand, hop]

theorem exec_getdf {c : Command} (hop : c.op = 0x0B#8) (s : State) :
    (c.hdr = 0x0B#32 ∧ c.imm = 0#32 → exec (.getdf c.fields c.imm c.payload) s =
      .next (answered s (downlinkWord (downlinkFormat s.cfg.df24Family c.payload[0])))) ∧
    (¬(c.hdr = 0x0B#32 ∧ c.imm = 0#32) →
      exec (.getdf c.fields c.imm c.payload) s = .next (refusedIllegal s)) :=
  runCommand_answer (badPlain_fields_eq_false_iff hop) s _

theorem downlinkWord_of_ne_invalid {d : DownlinkFormat} (hd : d ≠ .invalid) :
    downlinkWord d = BitVec.ofNat 32 d.value.toNat := by
  rw [downlinkWord, if_neg hd, BitVec.ofNat_toNat]

/-- Settles O12. -/
theorem getdfNamesTheFormat : Obligations.GetdfNamesTheFormat := by
  unfold Obligations.GetdfNamesTheFormat
  intro c s hop
  obtain ⟨hanswer, hrefuse⟩ := exec_getdf hop s
  refine ⟨decode_getdf hop, ?_, ?_, ?_, hrefuse⟩
  · rintro ⟨hhdr, himm, hknown⟩
    obtain ⟨d, hne, hvalue⟩ := exists_value_eq hknown
    rw [hanswer ⟨hhdr, himm⟩, downlinkFormat_of_value hne hvalue, downlinkWord_of_ne_invalid hne,
      hvalue]
    rfl
  · rintro ⟨hhdr, himm, hunknown, hfamily, h25⟩
    rw [← ushiftRight_three_toNat] at hunknown h25
    have hif : (s.cfg.df24Family && decide (25 ≤ (c.payload[0] >>> 3).toNat)) = true := by
      rw [hfamily, decide_eq_true h25, Bool.and_self]
    rw [hanswer ⟨hhdr, himm⟩, downlinkFormat_of_unknown _ hunknown, if_pos hif]
    rfl
  · rintro ⟨hhdr, himm, hunknown, hfamily⟩
    rw [← ushiftRight_three_toNat] at hunknown hfamily
    rw [hanswer ⟨hhdr, himm⟩, downlinkFormat_of_unknown _ hunknown, if_neg (by simpa using hfamily)]
    rfl

/-! ### GETICAO (R503) -/

theorem decode_geticao {c : Command} (hop : c.op = 0x0C#8) :
    decode (.command c) = .geticao c.fields c.imm c.payload := by
  simp [decode, decodeCommand, hop]

theorem exec_geticao (c : Command) (s : State) :
    (reservedZero c ∧ c.imm = 0#32 → exec (.geticao c.fields c.imm c.payload) s =
      .next (answered s ((getIcao s.cfg (commandFrame c.fields.len c.payload)).setWidth 32))) ∧
    (¬(reservedZero c ∧ c.imm = 0#32) →
      exec (.geticao c.fields c.imm c.payload) s = .next (refusedIllegal s)) :=
  runCommand_answer (badLenForm_fields_eq_false_iff c) s _

/-- Settles O13. -/
theorem geticaoAnswersTheAddress : Obligations.GeticaoAnswersTheAddress := by
  unfold Obligations.GeticaoAnswersTheAddress
  intro c s hop
  obtain ⟨hanswer, hrefuse⟩ := exec_geticao c s
  exact ⟨decode_geticao hop, hanswer, hrefuse⟩

/-! ### error_bit under a mask (R453, R505) -/

/-- A single match among the elements that pass a test. -/
theorem filter_eq_singleton_iff {α : Type} {as : List α} (has : as.Nodup) {p : α → Bool} {a : α} :
    as.filter p = [a] ↔ (a ∈ as ∧ p a = true) ∧ ∀ b ∈ as, p b = true → b = a := by
  rw [← List.perm_singleton, List.perm_ext_iff_of_nodup (has.filter p) (List.nodup_singleton a)]
  simp only [List.mem_filter, List.mem_singleton]
  constructor
  · intro h
    exact ⟨(h a).mpr rfl, fun b hb hp => (h b).mp ⟨hb, hp⟩⟩
  · rintro ⟨ha, huniq⟩ b
    refine ⟨fun h => huniq b h.1 h.2, ?_⟩
    rintro rfl
    exact ha

/-- The table position `e` of a frame of `l` bytes holds `s`, as far as the mask looks. -/
def MatchesAt (mask : U24) (l : Nat) (s : U24) (e : Nat) : Prop :=
  5 ≤ e ∧ e < 8 * l ∧ romSyn l e &&& mask = s

/-- A position is reported if it is the single match of a nonzero syndrome. -/
theorem errorBitMasked_eq_some_iff {mask s : U24} {l e : Nat} (hl : l = 7 ∨ l = 14) (hs : s ≠ 0#24) :
    errorBitMasked mask l (s.setWidth 32) = some e ↔
      MatchesAt mask l s e ∧ ∀ e', MatchesAt mask l s e' → e' = e := by
  have hzero : s.setWidth 32 ≠ 0#32 := fun h => hs (setWidth32_inj (w := 0#24) h)
  have hgo : ¬(!validLen l || s.setWidth 32 == 0#32) = true := by
    simp [validLen_iff.mpr hl, hzero]
  have htest (i : Nat) : (i ∈ List.range (8 * l) ∧
      (decide (5 ≤ i) && (romSyn l i &&& mask).setWidth 32 == s.setWidth 32) = true) ↔
      MatchesAt mask l s i := by
    have hinj : (romSyn l i &&& mask).setWidth 32 = s.setWidth 32 ↔ romSyn l i &&& mask = s :=
      ⟨setWidth32_inj, congrArg _⟩
    simp only [List.mem_range, Bool.and_eq_true, decide_eq_true_iff, beq_iff_eq, hinj, MatchesAt]
    exact and_left_comm
  have hsingle := filter_eq_singleton_iff (List.nodup_range (n := 8 * l)) (a := e)
    (p := fun i => decide (5 ≤ i) && (romSyn l i &&& mask).setWidth 32 == s.setWidth 32)
  simp only [← and_imp, htest] at hsingle
  rw [errorBitMasked, if_neg hgo, ← hsingle]
  split
  case h_1 i hi =>
    rw [hi]
    simp
  case h_2 hno => exact iff_of_false (Option.some_ne_none e).symm (hno e)

/-! ### The classes of frames (R504, R505) -/

theorem frameCf_eq_zero_iff (f : Frame) : frameCf f = 0#3 ↔ f.byte 0 &&& 7#8 = 0#8 := by
  have h : ∀ b : Byte, b.extractLsb' 0 3 = 0#3 ↔ b &&& 7#8 = 0#8 := by decide
  exact h (f.byte 0)

/-- A frame of format `d` has an address field AA: DF11, DF17, and DF18 with CF 0 (R505). -/
def CarriesAddress (d : DownlinkFormat) (f : Frame) : Prop :=
  d = .df11 ∨ d = .df17 ∨ (d = .df18 ∧ f.byte 0 &&& 7#8 = 0#8)

theorem getIcao_of_badLen (cfg : Config) {f : Frame} (hl : ¬(f.len = 7 ∨ f.len = 14)) :
    getIcao cfg f = 0#24 :=
  if_pos (by simpa [← validLen_iff] using hl)

section Classes

variable {cfg : Config} {f : Frame} {d : DownlinkFormat}

/-- get_icao of a frame of a length that the engine accepts, its case distinction as an equation. -/
theorem getIcao_of_validLen (hl : f.len = 7 ∨ f.len = 14)
    (hd : d = downlinkFormat cfg.df24Family (f.byte 0)) :
    getIcao cfg f =
      if d.frameClass = .invalid then 0#24
      else if d.frameClass = .ap then syndrome24 f
      else if d = .df18 ∧ frameCf f ≠ 0#3 then 0#24
      else (piRepair cfg d f).elim 0#24 fun g => g.be3 1 := by
  have hgo : ¬(!validLen f.len) = true := by simp [validLen_iff.mpr hl]
  rw [getIcao, if_neg hgo, ← hd]
  cases hclass : d.frameClass with
  | invalid | ap => simp [hclass]
  | pi =>
    simp only [hclass]
    cases piRepair cfg d f <;> rfl

theorem getIcao_of_invalid (hd : .invalid = downlinkFormat cfg.df24Family (f.byte 0)) :
    getIcao cfg f = 0#24 := by
  by_cases hl : f.len = 7 ∨ f.len = 14
  · exact getIcao_of_validLen hl hd
  · exact getIcao_of_badLen cfg hl

theorem getIcao_of_ap (hl : f.len = 7 ∨ f.len = 14)
    (hd : d = downlinkFormat cfg.df24Family (f.byte 0)) (hclass : d.frameClass = .ap) :
    getIcao cfg f = syndrome24 f := by
  rw [getIcao_of_validLen hl hd, hclass]
  rfl

theorem getIcao_of_cf_ne_zero (hl : f.len = 7 ∨ f.len = 14)
    (hd : .df18 = downlinkFormat cfg.df24Family (f.byte 0)) (hcf : f.byte 0 &&& 7#8 ≠ 0#8) :
    getIcao cfg f = 0#24 := by
  rw [getIcao_of_validLen hl hd, if_neg (by decide), if_neg (by decide),
    if_pos ⟨rfl, mt (frameCf_eq_zero_iff f).mp hcf⟩]

theorem getIcao_of_carriesAddress (hl : f.len = 7 ∨ f.len = 14)
    (hd : d = downlinkFormat cfg.df24Family (f.byte 0)) (hf : CarriesAddress d f) :
    getIcao cfg f = (piRepair cfg d f).elim 0#24 fun g => g.be3 1 := by
  have hclass : d.frameClass = .pi := by
    rcases hf with rfl | rfl | ⟨rfl, -⟩
    all_goals rfl
  have hcf : ¬(d = .df18 ∧ frameCf f ≠ 0#3) := by
    rw [ne_eq, frameCf_eq_zero_iff]
    rcases hf with rfl | rfl | ⟨-, hcf⟩
    · simp
    · simp
    · exact fun h => h.2 hcf
  rw [getIcao_of_validLen hl hd, hclass, if_neg hcf]
  rfl

/-! ### The repair of a frame with an address (R505) -/

theorem getIcao_of_clean (hl : f.len = 7 ∨ f.len = 14)
    (hd : d = downlinkFormat cfg.df24Family (f.byte 0)) (hf : CarriesAddress d f)
    (hs : piSyndrome d f = 0#24) : getIcao cfg f = f.be3 1 := by
  rw [getIcao_of_carriesAddress hl hd hf, piRepair, if_pos hs]
  rfl

theorem getIcao_of_located {e : Nat} (hl : f.len = 7 ∨ f.len = 14)
    (hd : d = downlinkFormat cfg.df24Family (f.byte 0)) (hf : CarriesAddress d f)
    (hs : piSyndrome d f ≠ 0#24) (he : piErrorBit cfg d f.len (piSyndrome d f) = some e)
    (he5 : 5 ≤ e) : getIcao cfg f = (f.flip e).be3 1 := by
  rw [getIcao_of_carriesAddress hl hd hf, piRepair, if_neg hs, he]
  simp only [if_neg (Nat.not_lt.mpr he5)]
  rfl

theorem getIcao_of_unlocated (hl : f.len = 7 ∨ f.len = 14)
    (hd : d = downlinkFormat cfg.df24Family (f.byte 0)) (hf : CarriesAddress d f)
    (hs : piSyndrome d f ≠ 0#24) (he : piErrorBit cfg d f.len (piSyndrome d f) = none) :
    getIcao cfg f = 0#24 := by
  rw [getIcao_of_carriesAddress hl hd hf, piRepair, if_neg hs, he]
  rfl

end Classes

theorem piErrorBit_of_masked {cfg : Config} {d : DownlinkFormat}
    (h : cfg.df11MaskedMatch = true ∧ d = .df11) (l : Nat) (s : U24) :
    piErrorBit cfg d l s = errorBitMasked df11Mask l (s.setWidth 32) :=
  if_pos (by simpa using h)

theorem piErrorBit_of_literal {cfg : Config} {d : DownlinkFormat}
    (h : ¬(cfg.df11MaskedMatch = true ∧ d = .df11)) (l : Nat) (s : U24) :
    piErrorBit cfg d l s = errorBit l (s.setWidth 32) :=
  if_neg (by simpa using h)

/-- Settles O14: the class decides, and for a frame with an address what error_bit answers, literal or
masked. -/
theorem addressOfEachFrameClass : Obligations.AddressOfEachFrameClass := by
  unfold Obligations.AddressOfEachFrameClass
  intro cfg f d s hd hs
  obtain rfl : s = piSyndrome d f := hs
  refine ⟨fun h7 h14 => getIcao_of_badLen cfg (not_or.mpr ⟨h7, h14⟩), ?_, fun hl => ⟨?_, ?_, ?_⟩⟩
  · rintro rfl
    exact getIcao_of_invalid hd
  · intro hap
    have hclass : ∀ d' ∈ [DownlinkFormat.df0, .df4, .df5, .df16, .df20, .df21, .df24],
        d'.frameClass = .ap := by decide
    exact getIcao_of_ap hl hd (hclass d hap)
  · rintro rfl
    exact getIcao_of_cf_ne_zero hl hd
  · intro hf
    refine ⟨getIcao_of_clean hl hd hf, ?_, ?_, ?_, ?_⟩
    · intro e hs hliteral he
      obtain ⟨-, he5, -, -⟩ := errorBit_eq_some_iff.mp he
      exact getIcao_of_located hl hd hf hs ((piErrorBit_of_literal hliteral _ _).trans he) he5
    · intro hs hliteral he
      exact getIcao_of_unlocated hl hd hf hs ((piErrorBit_of_literal hliteral _ _).trans he)
    · intro e hs hmasked hd11 he5 he hmatch huniq
      have hbit : errorBitMasked df11Mask f.len ((piSyndrome d f).setWidth 32) = some e :=
        (errorBitMasked_eq_some_iff hl hs).mpr
          ⟨⟨he5, he, hmatch⟩, fun e' ⟨he5', he', hmatch'⟩ => huniq e' he5' he' hmatch'⟩
      exact getIcao_of_located hl hd hf hs
        ((piErrorBit_of_masked ⟨hmasked, hd11⟩ _ _).trans hbit) he5
    · intro hs hmasked hd11 hno
      have hbit : errorBitMasked df11Mask f.len ((piSyndrome d f).setWidth 32) = none := by
        refine Option.eq_none_iff_forall_ne_some.mpr fun e he => hno ?_
        obtain ⟨⟨he5, he, hmatch⟩, huniq⟩ := (errorBitMasked_eq_some_iff hl hs).mp he
        exact ⟨e, he5, he, hmatch, fun e' he5' he' hmatch' => huniq e' ⟨he5', he', hmatch'⟩⟩
      exact getIcao_of_unlocated hl hd hf hs
        ((piErrorBit_of_masked ⟨hmasked, hd11⟩ _ _).trans hbit)

/-! ### Flipped bits -/

theorem flip_flip (f : Frame) (k : Nat) : (f.flip k).flip k = f := by
  have hbytes : (f.bytes.modify (k / 8) (· ^^^ bitMask k)).modify (k / 8) (· ^^^ bitMask k) =
      f.bytes := by
    rw [List.modify_modify_eq]
    have hid : (· ^^^ bitMask k) ∘ (· ^^^ bitMask k) = (id : Byte → Byte) := by
      funext b
      simp
    rw [hid, List.modify_id]
  exact congrArg (Frame.mk f.len) hbytes

theorem byte_flip_of_ne (f : Frame) {j k : Nat} (h : k / 8 ≠ j) : (f.flip k).byte j = f.byte j := by
  simp [Frame.flip, Frame.byte, List.getD_eq_getElem?_getD, h]

theorem byte_flip_self {f : Frame} {k : Nat} (hk : k / 8 < f.bytes.length) :
    (f.flip k).byte (k / 8) = f.byte (k / 8) ^^^ bitMask k := by
  simp [Frame.flip, Frame.byte, List.getD_eq_getElem?_getD, hk]

/-- A bit beyond the DF field is none of the first five of the first byte. -/
theorem df_flip {f : Frame} (hf : wholeFrame f) {k : Nat} (hk : 5 ≤ k) :
    ((f.flip k).byte 0).toNat / 8 = (f.byte 0).toNat / 8 := by
  obtain ⟨hlen, hbytes⟩ := hf
  by_cases h0 : k / 8 = 0
  · have hmask : ∀ k < 8, 5 ≤ k → bitMask k >>> 3 = 0#8 := by decide
    have hbyte : (f.flip k).byte 0 = f.byte 0 ^^^ bitMask k := by
      have hself := byte_flip_self (f := f) (k := k) (by omega)
      rwa [h0] at hself
    rw [← ushiftRight_three_toNat, ← ushiftRight_three_toNat, hbyte,
      BitVec.ushiftRight_xor_distrib, hmask k (by omega) hk, BitVec.xor_zero]
  · rw [byte_flip_of_ne f h0]

theorem syndrome24_flip_flip {f : Frame} {j k : Nat} (hf : wholeFrame f) (hsyn : syndrome24 f = 0#24)
    (hj5 : 5 ≤ j) (hjk : j < k) (hk : k < 8 * f.len) :
    syndrome24 ((f.flip j).flip k) = romSyn f.len j ^^^ romSyn f.len k := by
  refine residue_injective ?_
  rw [residue_syndrome24_flip (wholeFrame_flip hf j) hk,
    syndrome24_flip hf hsyn hj5 (hjk.trans hk), residue_xor,
    residue_romSyn (k := k) hf.1 (hj5.trans hjk.le) hk]
  rfl

/-- Two errors do not cancel: the entries of their positions are distinct. -/
theorem syndrome24_flip_flip_ne_zero {f : Frame} {j k : Nat} (hf : wholeFrame f)
    (hsyn : syndrome24 f = 0#24) (hj5 : 5 ≤ j) (hjk : j < k) (hk : k < 8 * f.len) :
    syndrome24 ((f.flip j).flip k) ≠ 0#24 := by
  rw [syndrome24_flip_flip hf hsyn hj5 hjk hk, ne_eq, BitVec.xor_eq_zero_iff]
  exact fun h => hjk.ne (romSyn_inj hf.1 hj5 (hjk.trans hk) (hj5.trans hjk.le) hk h)

/-! ### Frames with wrong bits (R506) -/

theorem piSyndrome_df17 (f : Frame) : piSyndrome .df17 f = syndrome24 f := rfl

theorem piErrorBit_df17 (cfg : Config) {f : Frame} (hl : f.len = 7 ∨ f.len = 14) :
    piErrorBit cfg .df17 f.len (syndrome24 f) = errorBit f.len (syndrome f) := by
  rw [piErrorBit_of_literal (by simp), syndrome_of_validLen hl]

section Df17

variable (cfg : Config) {f : Frame} (hf : wholeFrame f) (hdf : (f.byte 0).toNat / 8 = 17)
include hf hdf

theorem getIcao_df17_of_located {e : Nat} (hs : syndrome24 f ≠ 0#24)
    (he : errorBit f.len (syndrome f) = some e) : getIcao cfg f = (f.flip e).be3 1 := by
  obtain ⟨-, he5, -, -⟩ := errorBit_eq_some_iff.mp he
  exact getIcao_of_located hf.1 (downlinkFormat_of_value (d := .df17) (by simp) hdf).symm
    (.inr (.inl rfl)) hs ((piErrorBit_df17 cfg hf.1).trans he) he5

theorem getIcao_df17_of_unlocated (hs : syndrome24 f ≠ 0#24)
    (he : errorBit f.len (syndrome f) = none) : getIcao cfg f = 0#24 :=
  getIcao_of_unlocated hf.1 (downlinkFormat_of_value (d := .df17) (by simp) hdf).symm
    (.inr (.inl rfl)) hs ((piErrorBit_df17 cfg hf.1).trans he)

end Df17

/-- A word that has its whole value in the low bits has none of the high ones. -/
theorem and_highMask_eq_zero {m n : Nat} {s : BitVec (m + n)} (hs : s.toNat < 2 ^ n) :
    s &&& (BitVec.allOnes m ++ 0#n) = 0#(m + n) := by
  have hhigh : s.extractLsb' n m = 0#m := (extractHigh_eq_zero_iff s).mpr hs
  have hsplit : s = s.extractLsb' n m ++ s.extractLsb' 0 n :=
    BitVec.extractLsb'_append_extractLsb'.symm
  rw [hsplit, BitVec.and_append, hhigh, BitVec.zero_and, BitVec.and_zero, BitVec.zero_append_zero]

/-- The mask drops all of a syndrome that is an interrogator identifier (R323). -/
theorem and_df11Mask_eq_zero {s : U24} (hs : s.toNat < 128) : s &&& df11Mask = 0#24 := by
  have hmask : df11Mask = BitVec.allOnes 17 ++ 0#7 := by decide
  rw [hmask]
  exact and_highMask_eq_zero (m := 17) (n := 7) hs

/-- Settles O18: one wrong bit is located and flipped back, two are not located, and the mask hides the
interrogator identifier. -/
theorem wrongBitsGiveNoWrongAddress : Obligations.WrongBitsGiveNoWrongAddress := by
  unfold Obligations.WrongBitsGiveNoWrongAddress
  obtain ⟨hsingle, hdouble⟩ := errorBitLocatesSingleErrorsOnly
  refine ⟨?_, ?_, ?_⟩
  · intro cfg f k hl hbytes hdf hsyn hk5 hk
    have hf : wholeFrame f := ⟨.inr hl, hbytes.trans hl.symm⟩
    have hklen : k < 8 * f.len := by omega
    obtain ⟨hrom, hlocated⟩ := hsingle f k hf hsyn hk5 hklen
    have hne : syndrome24 (f.flip k) ≠ 0#24 := hrom ▸ romSyn_ne_zero hf.1 hk5 hklen
    rw [getIcao_df17_of_located cfg (wholeFrame_flip hf k) ((df_flip hf hk5).trans hdf) hne hlocated,
      flip_flip]
  · intro cfg f j k hl hbytes hdf hsyn hj5 hjk hk
    have hf : wholeFrame f := ⟨.inr hl, hbytes.trans hl.symm⟩
    have hfj := wholeFrame_flip hf j
    have hklen : k < 8 * f.len := by omega
    have hdf2 : (((f.flip j).flip k).byte 0).toNat / 8 = 17 := by
      rw [df_flip hfj (by omega), df_flip hf hj5, hdf]
    exact getIcao_df17_of_unlocated cfg (wholeFrame_flip hfj k) hdf2
      (syndrome24_flip_flip_ne_zero hf hsyn hj5 hjk hklen) (hdouble f j k hf hsyn hjk hklen)
  · intro cfg f hl _ hdf hsyn
    exact getIcao_of_clean (.inl hl) (downlinkFormat_of_value (d := .df11) (by simp) hdf).symm
      (.inl rfl) (and_df11Mask_eq_zero hsyn)

end Sys2Proof.Machine
end

section
/-!
The preamble detector (44_preamble.md). Each of the three tests is stated once as the comparisons of its
rule, on any window; the detector is their conjunction on the window that the ring holds.
-/

namespace Sys2Proof.Machine

/-- R552. -/
theorem preambleShape_iff (b : Nat → Nat) :
    preambleShape b = true ↔
      b 0 > b 1 ∧ b 1 < b 2 ∧ b 2 > b 3 ∧ b 3 < b 0 ∧ b 4 < b 0 ∧ b 5 < b 0 ∧ b 6 < b 0 ∧
        b 7 > b 8 ∧ b 8 < b 9 ∧ b 9 > b 6 := by
  simp only [preambleShape, Bool.and_eq_true, decide_eq_true_eq, and_assoc]

/-- R554. -/
theorem spikeGap_iff (b : Nat → Nat) :
    spikeGap b = true ↔ b 4 < highAvg b ∧ b 5 < highAvg b := by
  simp only [spikeGap, Bool.and_eq_true, decide_eq_true_eq]

/-- R555. -/
theorem quietZone_iff (b : Nat → Nat) :
    quietZone b = true ↔
      b 11 < highAvg b ∧ b 12 < highAvg b ∧ b 13 < highAvg b ∧ b 14 < highAvg b := by
  simp only [quietZone, Bool.and_eq_true, decide_eq_true_eq, and_assoc]

/-- R556. -/
theorem preamble_iff (ring : Vector Mag 240) (p : Fin 240) :
    preamble ring p = true ↔ preambleShape (ringAt ring p) = true ∧
      spikeGap (ringAt ring p) = true ∧ quietZone (ringAt ring p) = true := by
  simp only [preamble, preambleWindow, Bool.and_eq_true, and_assoc]

/-- Settles O31: the window is the ring read at `p`, and each test is its rule's comparisons on it. -/
theorem preambleIsTheThreeTests : Obligations.PreambleIsTheThreeTests := by
  unfold Obligations.PreambleIsTheThreeTests
  intro ring p b h hb hh
  obtain rfl : b = ringAt ring p := funext hb
  obtain rfl : h = highAvg (ringAt ring p) := hh
  rw [preamble_iff, preambleShape_iff, spikeGap_iff, quietZone_iff]

end Sys2Proof.Machine
end

section
/-!
PROOFS of the slicer family (45_slicer.md), the cell of R602. The floating-point operations are described by
one predicate, `FpVal.AtLeast`, a lower bound on the size of a value of a given sign: it excludes NaN, it is
what a comparison decides, and rounding keeps it where the bound is a value of the format. The correction is
bounded by it step by step.
-/

namespace Sys2Proof.Machine

open Sys2Proof.Claims

/-! ### Rounding and the values of the format -/

/-- Rounding does not go below a value of the format. -/
theorem le_roundedUnits {F : FpFormat} {a d m : Nat} (hd : 0 < d) (hm : representable F m)
    (hle : m * d ≤ a) : m ≤ roundedUnits F a d := by
  have hd' : (0 : ℚ) < d := by exact_mod_cast hd
  have hq : (m : ℚ) ≤ (a : ℚ) / d := (le_div_iff₀ hd').mpr (by exact_mod_cast hle)
  have hnear := roundedUnits_nearest F a hd hm
  rw [abs_of_nonneg (sub_nonneg.mpr hq)] at hnear
  have hle' : (m : ℚ) ≤ roundedUnits F a d := (sub_le_sub_iff_left _).mp (le_of_abs_le hnear)
  exact_mod_cast hle'

/-- A value of the format is rounded to itself. -/
theorem fpRound_mul_self {F : FpFormat} (neg : Bool) {d m : Nat} (hd : 0 < d)
    (hm : representable F m) (hlimit : m < F.limit) : fpRound F neg (m * d) d = .fin neg m := by
  have hd' : (d : ℚ) ≠ 0 := by exact_mod_cast hd.ne'
  have hnear := roundedUnits_nearest F (m * d) hd hm
  rw [Nat.cast_mul, mul_div_cancel_right₀ _ hd', sub_self, abs_zero, abs_nonpos_iff, sub_eq_zero,
    Nat.cast_inj] at hnear
  exact (fpRound_eq_fin_iff ..).mpr ⟨rfl, hnear.symm, hlimit⟩

theorem fpRound_one {F : FpFormat} (neg : Bool) {m : Nat} (hm : representable F m)
    (hlimit : m < F.limit) : fpRound F neg m 1 = .fin neg m := by
  simpa using fpRound_mul_self neg Nat.one_pos hm hlimit

theorem representable_two_pow (F : FpFormat) (e : Nat) : representable F (2 ^ e) :=
  ⟨1, e, Nat.one_lt_two_pow (by omega), (one_mul _).symm⟩

theorem representable_zero (F : FpFormat) : representable F 0 :=
  ⟨0, 0, Nat.two_pow_pos _, rfl⟩

theorem fpRound_zero (F : FpFormat) (neg : Bool) : fpRound F neg 0 1 = .fin neg 0 :=
  fpRound_one neg (representable_zero F) (Nat.two_pow_pos _)

/-! ### Lower bounds on a value -/

/-- `x` has the sign `neg` and at least `m` units; the infinity of that sign has. -/
def FpVal.AtLeast (neg : Bool) (m : Nat) (x : FpVal) : Prop :=
  x = .inf neg ∨ ∃ k, m ≤ k ∧ x = .fin neg k

theorem FpVal.atLeast_inf (neg : Bool) (m : Nat) : FpVal.AtLeast neg m (.inf neg) := .inl rfl

theorem FpVal.atLeast_fin (neg : Bool) {m k : Nat} (h : m ≤ k) : FpVal.AtLeast neg m (.fin neg k) :=
  .inr ⟨k, h, rfl⟩

section AtLeast

variable {F : FpFormat} {neg : Bool} {m n k : Nat} {x y : FpVal}

theorem FpVal.AtLeast.mono (hx : x.AtLeast neg m) (h : n ≤ m) : x.AtLeast neg n := by
  rcases hx with rfl | ⟨k, hk, rfl⟩
  · exact atLeast_inf neg n
  · exact atLeast_fin neg (h.trans hk)

theorem FpVal.AtLeast.ne_nan (hx : x.AtLeast neg m) : x ≠ .nan := by
  rcases hx with rfl | ⟨k, -, rfl⟩ <;> simp

theorem FpVal.AtLeast.ne_inf_not (hx : x.AtLeast neg m) : x ≠ .inf (!neg) := by
  rcases hx with rfl | ⟨k, -, rfl⟩ <;> simp

/-- The comparison with a value that is not negative, NaN included. -/
theorem fpGt_fin_iff : fpGt x (.fin false m) = true ↔ x.AtLeast false (m + 1) := by
  cases x with
  | nan => simp [fpGt, FpVal.AtLeast]
  | inf neg => cases neg <;> simp [fpGt, FpVal.AtLeast]
  | fin neg k => cases neg <;> simp [fpGt, FpVal.AtLeast, signedUnits]

theorem FpVal.AtLeast.fpGt_fin (hx : x.AtLeast false n) (h : m < n) :
    fpGt x (.fin false m) = true := fpGt_fin_iff.mpr (hx.mono h)

theorem FpVal.AtLeast.fin_not_gt (hx : x.AtLeast false m) : fpGt (.fin false m) x = false := by
  rcases hx with rfl | ⟨k, hk, rfl⟩
  · rfl
  · simpa [fpGt, signedUnits] using hk

theorem FpVal.AtLeast.negative_not_gt (hx : x.AtLeast true m) : fpGt x (.fin false n) = false := by
  rcases hx with rfl | ⟨k, -, rfl⟩
  · rfl
  · simp only [fpGt, signedUnits, decide_eq_false_iff_not]
    simp

theorem atLeast_fpRound {a d : Nat} (neg : Bool) (hd : 0 < d) (hm : representable F m)
    (hle : m * d ≤ a) : (fpRound F neg a d).AtLeast neg m := by
  rw [fpRound_eq]
  split
  · exact FpVal.atLeast_inf neg m
  · exact FpVal.atLeast_fin neg (le_roundedUnits hd hm hle)

/-! ### The operations on values of known sign -/

theorem fpAdd_fin (F : FpFormat) (m n : Nat) :
    fpAdd F (.fin false m) (.fin false n) = fpRound F false (m + n) 1 := by
  simp only [fpAdd, fpAddFin, signedUnits, Bool.false_eq_true, if_false]
  split
  case isTrue hzero =>
    obtain ⟨rfl, rfl⟩ : m = 0 ∧ n = 0 := by omega
    exact (fpRound_zero F false).symm
  case isFalse =>
    rw [decide_eq_false (by omega)]
    rfl

theorem fpSub_fin_of_le (F : FpFormat) (h : n ≤ m) :
    fpSub F (.fin false m) (.fin false n) = fpRound F false (m - n) 1 := by
  simp only [fpSub, fpNeg, fpAdd, fpAddFin, signedUnits, Bool.not_false, Bool.false_eq_true, if_true,
    if_false]
  split
  case isTrue hzero =>
    rw [show m - n = 0 by omega, fpRound_zero]
    rfl
  case isFalse =>
    rw [decide_eq_false (by omega), show ((m : Int) + -n).natAbs = m - n by omega]

theorem fpSub_fin_of_lt (F : FpFormat) (h : m < n) :
    fpSub F (.fin false m) (.fin false n) = fpRound F true (n - m) 1 := by
  simp only [fpSub, fpNeg, fpAdd, fpAddFin, signedUnits, Bool.not_false, Bool.false_eq_true, if_true,
    if_false]
  rw [if_neg (by omega), decide_eq_true (by omega), show ((m : Int) + -n).natAbs = n - m by omega]

theorem FpVal.AtLeast.fpAdd (hx : x.AtLeast false m) (hy : y.AtLeast false n)
    (hk : representable F k) (h : k ≤ m + n) : (fpAdd F x y).AtLeast false k := by
  rcases hx with rfl | ⟨m', hm, rfl⟩ <;> rcases hy with rfl | ⟨n', hn, rfl⟩
  case inr.inr =>
    rw [fpAdd_fin]
    exact atLeast_fpRound false Nat.one_pos hk (by omega)
  all_goals exact atLeast_inf false k

/-- A value is taken from a smaller one. -/
theorem FpVal.AtLeast.fin_fpSub (hx : x.AtLeast false n) (hk : representable F k) (hmn : m < n)
    (h : m + k ≤ n) : (fpSub F (.fin false m) x).AtLeast true k := by
  rcases hx with rfl | ⟨n', hn, rfl⟩
  · exact atLeast_inf true k
  · rw [fpSub_fin_of_lt F (by omega)]
    exact atLeast_fpRound true Nat.one_pos hk (by omega)

theorem fpMul_comm (F : FpFormat) (x y : FpVal) : fpMul F x y = fpMul F y x := by
  cases x <;> cases y <;> simp [fpMul, Bool.xor_comm, Nat.mul_comm]

theorem FpVal.AtLeast.fin_fpMul (hx : x.AtLeast neg n) (neg' : Bool) (hm : m ≠ 0)
    (hk : representable F k) (h : k * 2 ^ F.scale ≤ m * n) :
    (fpMul F (.fin neg' m) x).AtLeast (neg' != neg) k := by
  rcases hx with rfl | ⟨n', hn, rfl⟩
  · simp only [fpMul, if_neg hm]
    exact atLeast_inf _ k
  · exact atLeast_fpRound _ (Nat.two_pow_pos _) hk (h.trans (Nat.mul_le_mul_left m hn))

theorem FpVal.AtLeast.fpDiv_fin (hx : x.AtLeast neg n) (hm : m ≠ 0) (hk : representable F k)
    (h : k * m ≤ n * 2 ^ F.scale) : (fpDiv F x (.fin false m)).AtLeast neg k := by
  rcases hx with rfl | ⟨n', hn, rfl⟩
  · simp only [fpDiv, Bool.bne_false]
    exact atLeast_inf _ k
  · simp only [fpDiv, if_neg hm, Bool.bne_false]
    exact atLeast_fpRound _ (Nat.pos_of_ne_zero hm) hk (h.trans (Nat.mul_le_mul_right _ hn))

theorem FpVal.AtLeast.fpDiv_zero (hx : x.AtLeast neg n) (hn : 0 < n) :
    fpDiv F x (.fin false 0) = .inf neg := by
  rcases hx with rfl | ⟨n', hn', rfl⟩
  · simp [fpDiv]
  · simp [fpDiv, show n' ≠ 0 by omega]

end AtLeast

/-! ### The magnitudes in a format -/

/-- A format in which magnitudes, their sums and their halves are values, and whose patterns fit in 64
bits. -/
structure FpFormat.HoldsMagnitudes (F : FpFormat) : Prop where
  frac_ge : 16 ≤ F.fracBits
  frac_lt_scale : F.fracBits < F.scale
  scale_le : F.scale + 17 ≤ F.expMax - 1 + F.fracBits
  width_lt : F.expBits + F.fracBits < 64

theorem holdsMagnitudes_fpFormat (fp : SlicerFp) : (fpFormat fp).HoldsMagnitudes := by
  cases fp <;> constructor <;> decide

/-- A half-chip of magnitude `n`, exactly. -/
abbrev cellValue (F : FpFormat) (n : Nat) : FpVal := .fin false (n * 2 ^ F.scale)

/-- The average of two half-chips whose magnitudes sum to `n`, exactly. -/
abbrev cellAverage (F : FpFormat) (n : Nat) : FpVal := .fin false (n * 2 ^ (F.scale - 1))

/-- The cell (m0, m1) with its second half-chip raised by `corr` (R602). -/
def raisedCell (F : FpFormat) (m0 m1 : Nat) (corr : FpVal) : AgcResult :=
  ⟨fpAdd F (cellValue F m1) corr, fpAverage F (fpAdd F (cellValue F m1) corr) (cellValue F m0),
    fpGt (cellValue F m0) (fpAdd F (cellValue F m1) corr)⟩

section Magnitudes

variable {F : FpFormat} {m n m0 m1 : Nat} {prev : FpVal}

theorem FpFormat.HoldsMagnitudes.representable_mul (hF : F.HoldsMagnitudes) (hn : n < 2 ^ 17)
    (e : Nat) : representable F (n * 2 ^ e) :=
  representable_mul_two_pow F e
    (hn.le.trans (Nat.pow_le_pow_right Nat.two_pos (Nat.add_le_add_right hF.frac_ge 1)))

theorem FpFormat.HoldsMagnitudes.mul_lt_limit (hF : F.HoldsMagnitudes) (hn : n < 2 ^ 17) {e : Nat}
    (he : e ≤ F.scale) : n * 2 ^ e < F.limit :=
  calc n * 2 ^ e < 2 ^ 17 * 2 ^ e := Nat.mul_lt_mul_of_pos_right hn (Nat.two_pow_pos e)
    _ = 2 ^ (17 + e) := (pow_add ..).symm
    _ ≤ F.limit := Nat.pow_le_pow_right Nat.two_pos (by have := hF.scale_le; omega)

theorem FpFormat.HoldsMagnitudes.fpRound_mul (hF : F.HoldsMagnitudes) (hn : n < 2 ^ 17) :
    fpRound F false (n * 2 ^ F.scale) 1 = .fin false (n * 2 ^ F.scale) :=
  fpRound_one false (hF.representable_mul hn _) (hF.mul_lt_limit hn le_rfl)

theorem fpOfNat_eq (hF : F.HoldsMagnitudes) (hn : n ≤ 65535) : fpOfNat F n = cellValue F n :=
  hF.fpRound_mul (by omega)

/-- R602, step 1: the average is exact. -/
theorem fpAverage_eq (hF : F.HoldsMagnitudes) (h0 : m0 ≤ 65535) (h1 : m1 ≤ 65535) :
    fpAverage F (cellValue F m1) (cellValue F m0) = cellAverage F (m0 + m1) := by
  have hn : m0 + m1 < 2 ^ 17 := by omega
  rw [fpAverage, fpAdd_fin, ← Nat.add_mul, Nat.add_comm m1, hF.fpRound_mul hn, fpHalf, fpMul,
    Nat.mul_right_comm]
  exact fpRound_mul_self _ (Nat.two_pow_pos _) (hF.representable_mul hn _)
    (hF.mul_lt_limit hn (Nat.sub_le ..))

theorem fpAverage_atLeast_zero {x : FpVal} (hx : x.AtLeast false n) :
    (fpAverage F x (cellValue F m0)).AtLeast false 0 := by
  have hsum : (fpAdd F x (cellValue F m0)).AtLeast false 0 :=
    hx.fpAdd (FpVal.atLeast_fin false le_rfl) (representable_zero F) (Nat.zero_le _)
  rw [fpAverage, fpMul_comm]
  exact hsum.fin_fpMul false (by simp) (representable_zero F) (by simp)

theorem fpGt_cellValue (F : FpFormat) (m0 m1 : Nat) :
    fpGt (cellValue F m0) (cellValue F m1) = decide (m1 < m0) := by
  have hunit := Nat.two_pow_pos F.scale
  exact decide_eq_decide.mpr (Int.ofNat_lt.trans (Nat.mul_lt_mul_right hunit))

/-- Adding 0 to a half-chip changes nothing. -/
theorem raisedCell_zero (hF : F.HoldsMagnitudes) (h0 : m0 ≤ 65535) (h1 : m1 ≤ 65535) :
    raisedCell F m0 m1 fpZero = ⟨cellValue F m1, cellAverage F (m0 + m1), decide (m1 < m0)⟩ := by
  have hsum : fpAdd F (cellValue F m1) fpZero = cellValue F m1 :=
    (fpAdd_fin F _ 0).trans (hF.fpRound_mul (by omega))
  rw [raisedCell, hsum, fpAverage_eq hF h0 h1, fpGt_cellValue]

/-- A value of the format above an average of magnitudes is above it by a power of two that is not small
beside the average: the two are multiples of the average's last place. -/
theorem exists_gap (hF : F.HoldsMagnitudes) (hn : n < 2 ^ 17) (hn0 : n ≠ 0) (hm : representable F m)
    (hlt : n * 2 ^ (F.scale - 1) < m) :
    ∃ t, n * 2 ^ (F.scale - 1) + 2 ^ t ≤ m ∧ n * 2 ^ (F.scale - 1) ≤ 2 ^ (t + 4) * 2 ^ F.scale := by
  obtain ⟨hfrac, hscale, -, -⟩ := hF
  have hlog : n.log2 < 17 := (Nat.log2_lt hn0).mpr hn
  obtain ⟨t, ht⟩ : ∃ t, F.fracBits + t = n.log2 + (F.scale - 1) :=
    ⟨n.log2 + (F.scale - 1) - F.fracBits, by omega⟩
  have hdvd : 2 ^ t ∣ n * 2 ^ (F.scale - 1) :=
    (Nat.pow_dvd_pow 2 (by omega)).mul_left n
  have hlow : 2 ^ (F.fracBits + t) ≤ n * 2 ^ (F.scale - 1) := by
    rw [ht, pow_add]
    exact Nat.mul_le_mul_right _ (Nat.log2_self_le hn0)
  refine ⟨t, ?_, ?_⟩
  · rcases representable_cases hm t with ⟨k, rfl⟩ | ⟨-, hsmall⟩
    · obtain ⟨j, hj⟩ := hdvd
      rw [hj, Nat.mul_comm] at hlt ⊢
      rw [← Nat.succ_mul]
      exact Nat.mul_le_mul_right _ (Nat.lt_of_mul_lt_mul_right hlt)
    · omega
  · calc n * 2 ^ (F.scale - 1) ≤ 2 ^ (n.log2 + 1) * 2 ^ (F.scale - 1) :=
          Nat.mul_le_mul_right _ Nat.lt_log2_self.le
      _ = 2 ^ (n.log2 + 1 + (F.scale - 1)) := (pow_add ..).symm
      _ ≤ 2 ^ (t + 4 + F.scale) := Nat.pow_le_pow_right Nat.two_pos (by omega)
      _ = 2 ^ (t + 4) * 2 ^ F.scale := pow_add ..

/-! ### The correction (R602, step 2) -/

/-- R604 items 3 and 4: the correction of a level that does not fall is not above 0. -/
theorem agcCorrection_of_not_falling (hm : m ≤ n) (hn : n ≠ 0) :
    (agcCorrection F (.fin false n) (.fin false m)).AtLeast true 0 := by
  have hdiff : (fpSub F (.fin false n) (.fin false m)).AtLeast false 0 := by
    rw [fpSub_fin_of_le F hm]
    exact atLeast_fpRound false Nat.one_pos (representable_zero F) (by simp)
  have hprod := hdiff.fin_fpMul true (m := 20 * 2 ^ F.scale) (by simp) (representable_zero F) (by simp)
  exact hprod.fpDiv_fin hn (representable_zero F) (by simp)

/-- The dividend of the correction of a falling level. -/
theorem fpMul_agcFactor_of_falling {t : Nat} (hprev : prev.AtLeast false (n + 2 ^ t)) :
    (fpMul F (fpAgcFactor F) (fpSub F (.fin false n) prev)).AtLeast false (2 ^ (t + 4)) := by
  have hdiff : (fpSub F (.fin false n) prev).AtLeast true (2 ^ t) :=
    hprev.fin_fpSub (representable_two_pow F t) (by simp) le_rfl
  refine hdiff.fin_fpMul true (by simp) (representable_two_pow F (t + 4)) ?_
  rw [pow_add, Nat.mul_right_comm 20, Nat.mul_comm 20]
  exact Nat.mul_le_mul_right _ (Nat.mul_le_mul_left _ (by norm_num))

/-- R604 item 6, for every value above 0. -/
theorem agcCorrection_of_zero (hprev : prev.AtLeast false 1) :
    agcCorrection F (.fin false 0) prev = .inf false :=
  (fpMul_agcFactor_of_falling (n := 0) (t := 0) hprev).fpDiv_zero (by norm_num)

theorem agcCorrection_of_inf : agcCorrection F (.fin false n) (.inf false) = .inf false := by
  simp [agcCorrection, fpSub, fpNeg, fpAdd, fpAgcFactor, fpMul, fpDiv]

theorem agcCorrection_of_falling (hprev : prev.AtLeast false (n + 1)) :
    (agcCorrection F (.fin false n) prev).AtLeast false 0 := by
  rcases eq_or_ne n 0 with rfl | hn
  · rw [agcCorrection_of_zero (by simpa using hprev)]
    exact FpVal.atLeast_inf false 0
  · exact (fpMul_agcFactor_of_falling (t := 0) hprev).fpDiv_fin hn (representable_zero F) (by simp)

/-- R604 item 5. -/
theorem agcCorrection_pos (hF : F.HoldsMagnitudes) (hn : n < 2 ^ 17) (hn0 : n ≠ 0)
    (hm : representable F m) (hlt : n * 2 ^ (F.scale - 1) < m) :
    (agcCorrection F (.fin false (n * 2 ^ (F.scale - 1))) (.fin false m)).AtLeast false 1 := by
  obtain ⟨t, hgap, hsize⟩ := exists_gap hF hn hn0 hm hlt
  have hone : representable F 1 := representable_two_pow F 0
  exact (fpMul_agcFactor_of_falling (FpVal.atLeast_fin false hgap)).fpDiv_fin (by simp [hn0]) hone
    (by rwa [Nat.one_mul])

/-! ### The cell (R602) -/

/-- The cell with every step carried out but the correction. -/
theorem agcBit_cell (hF : F.HoldsMagnitudes) (h0 : m0 ≤ 65535) (h1 : m1 ≤ 65535) :
    agcBit F (fpOfNat F m0) (fpOfNat F m1) prev =
      if fpGt prev fpZero && fpGt (agcCorrection F (cellAverage F (m0 + m1)) prev) fpZero then
        raisedCell F m0 m1 (agcCorrection F (cellAverage F (m0 + m1)) prev)
      else ⟨cellValue F m1, cellAverage F (m0 + m1), decide (m1 < m0)⟩ := by
  rw [agcBit, fpOfNat_eq hF h0, fpOfNat_eq hF h1, fpAverage_eq hF h0 h1, fpGt_cellValue]
  rfl

/-- R604 items 1 to 4: no correction without a fall from a positive average. -/
theorem agcBit_of_not_falling (hF : F.HoldsMagnitudes) (h0 : m0 ≤ 65535) (h1 : m1 ≤ 65535)
    (h : fpGt prev fpZero = false ∨ fpGt prev (cellAverage F (m0 + m1)) = false) :
    agcBit F (fpOfNat F m0) (fpOfNat F m1) prev =
      ⟨cellValue F m1, cellAverage F (m0 + m1), decide (m1 < m0)⟩ := by
  rw [agcBit_cell hF h0 h1, if_neg]
  rw [Bool.and_eq_true]
  rintro ⟨hpos, hcorr⟩
  have hfall := h.resolve_left (by simp [hpos])
  rcases fpGt_fin_iff.mp hpos with rfl | ⟨m, hm, rfl⟩
  · simp [fpGt] at hfall
  · have hle : m ≤ (m0 + m1) * 2 ^ (F.scale - 1) := by
      by_contra hlt
      simp [(FpVal.atLeast_fin false le_rfl).fpGt_fin (not_le.mp hlt)] at hfall
    have hnot := (agcCorrection_of_not_falling (F := F) hle (by omega)).negative_not_gt (n := 0)
    exact absurd hcorr (by simp [fpZero, hnot])

/-- A correction of 0 leaves the cell as it is, so on a falling level the correction may be taken to
apply always. -/
theorem agcBit_of_falling (hF : F.HoldsMagnitudes) (h0 : m0 ≤ 65535) (h1 : m1 ≤ 65535)
    (h : fpGt prev (cellAverage F (m0 + m1)) = true) :
    agcBit F (fpOfNat F m0) (fpOfNat F m1) prev =
      raisedCell F m0 m1 (agcCorrection F (cellAverage F (m0 + m1)) prev) := by
  have hprev := fpGt_fin_iff.mp h
  have hpos : fpGt prev fpZero = true := hprev.fpGt_fin (Nat.succ_pos _)
  rw [agcBit_cell hF h0 h1, hpos, Bool.true_and]
  rcases agcCorrection_of_falling (F := F) hprev with hinf | ⟨c, -, hc⟩
  · rw [hinf]
    rfl
  · rw [hc]
    rcases Nat.eq_zero_or_pos c with rfl | hc0
    · exact (raisedCell_zero hF h0 h1).symm
    · exact if_pos ((FpVal.atLeast_fin false le_rfl).fpGt_fin hc0)

/-- R604 item 6. -/
theorem agcBit_of_infinite_correction (hF : F.HoldsMagnitudes) (h0 : m0 ≤ 65535) (h1 : m1 ≤ 65535)
    (h : fpGt prev (cellAverage F (m0 + m1)) = true)
    (hcorr : agcCorrection F (cellAverage F (m0 + m1)) prev = .inf false) :
    agcBit F (fpOfNat F m0) (fpOfNat F m1) prev = ⟨.inf false, .inf false, false⟩ := by
  rw [agcBit_of_falling hF h0 h1 h, hcorr]
  simp [raisedCell, fpAverage, fpHalf, fpAdd, fpMul, fpGt]

/-- s1 is not lowered, and the bit is decided by it. -/
theorem agcBit_bounds (hF : F.HoldsMagnitudes) (h0 : m0 ≤ 65535) (h1 : m1 ≤ 65535) {r : AgcResult}
    (hr : r = agcBit F (fpOfNat F m0) (fpOfNat F m1) prev) :
    r.s1c.AtLeast false (m1 * 2 ^ F.scale) ∧ r.avg.AtLeast false 0 ∧
      r.bit = fpGt (cellValue F m0) r.s1c := by
  cases hfall : fpGt prev (cellAverage F (m0 + m1)) with
  | false =>
    rw [hr, agcBit_of_not_falling hF h0 h1 (.inr hfall)]
    exact ⟨FpVal.atLeast_fin false le_rfl, FpVal.atLeast_fin false (Nat.zero_le _),
      (fpGt_cellValue F m0 m1).symm⟩
  | true =>
    rw [hr, agcBit_of_falling hF h0 h1 hfall]
    have hcorr := agcCorrection_of_falling (F := F) (fpGt_fin_iff.mp hfall)
    have hs1c : (fpAdd F (cellValue F m1) (agcCorrection F (cellAverage F (m0 + m1)) prev)).AtLeast
        false (m1 * 2 ^ F.scale) :=
      (FpVal.atLeast_fin false le_rfl).fpAdd hcorr (hF.representable_mul (by omega) _) le_rfl
    exact ⟨hs1c, fpAverage_atLeast_zero hs1c, rfl⟩

end Magnitudes

/-- Settles O34: a cell falls below the previous average or it does not (`agcBit_of_falling`,
`agcBit_of_not_falling`). -/
theorem correctionNeverGivesNaN : Obligations.CorrectionNeverGivesNaN := by
  unfold Obligations.CorrectionNeverGivesNaN
  rintro fp _ m0 m1 prev _ _ _ _ r h0 h1 - - rfl rfl rfl rfl rfl hr
  have hF := holdsMagnitudes_fpFormat fp
  obtain ⟨hs1c, havg, hbit⟩ := agcBit_bounds hF h0 h1 hr
  refine ⟨hs1c.ne_nan, havg.ne_nan, havg.ne_inf_not, ?equal, ?notFalling, ?falling, ?zeroCell,
    ?infinite⟩
  case equal =>
    rintro rfl
    exact hbit.trans hs1c.fin_not_gt
  case notFalling => exact fun h => hr.trans (agcBit_of_not_falling hF h0 h1 h)
  case falling =>
    refine fun hpos hfall => ⟨hr.trans (agcBit_of_falling hF h0 h1 hfall), ?_⟩
    rintro (rfl | ⟨m, hm, rfl⟩)
    · exact congrArg (fpGt · _) agcCorrection_of_inf
    · obtain hinf | ⟨k, hlt, hk⟩ := fpGt_fin_iff.mp hfall
      · simp at hinf
      · obtain rfl : m = k := by simpa using hk
        exact (agcCorrection_pos hF (by omega) hpos.ne' hm hlt).fpGt_fin Nat.one_pos
  case zeroCell =>
    rintro rfl rfl hpos
    have hzero : cellAverage (fpFormat fp) (0 + 0) = .fin false 0 := by simp [cellAverage]
    rw [← hzero] at hpos
    refine hr.trans (agcBit_of_infinite_correction hF h0 h1 hpos ?_)
    rw [hzero] at hpos ⊢
    exact agcCorrection_of_zero (fpGt_fin_iff.mp hpos)
  case infinite =>
    rintro rfl
    exact hr.trans (agcBit_of_infinite_correction hF h0 h1 rfl agcCorrection_of_inf)

end Sys2Proof.Machine
end

section
/-!
PROOFS of the slicer family (45_slicer.md), the attempt of R600 on ideal cells. All ideal cells of one window
have the same average, and prev_avg starts at 0, so no cell is corrected and each decodes to the bit it
carries; the bits are then read back from the frame buffer byte by byte.
-/

namespace Sys2Proof.Machine

open Sys2Proof.Claims

/-! ### prev_avg as a 64-bit register (R112) -/

section Patterns

variable {F : FpFormat} {m : Nat}

/-- The value of a pattern with the sign bit 0, exponent field `e` and fraction field `r`. -/
theorem fpDecode_of_fields {w : U64} {e r : Nat} (hr : r < 2 ^ F.fracBits) (he : e < F.expMax)
    (hw : w.toNat = e * 2 ^ F.fracBits + r) :
    fpDecode F w = .fin false (if e = 0 then r else (2 ^ F.fracBits + r) * 2 ^ (e - 1)) := by
  have hexp : e < 2 ^ F.expBits := he.trans_le (Nat.sub_le ..)
  have hfrac : w.toNat % 2 ^ F.fracBits = r := by
    rw [hw, Nat.mul_add_mod', Nat.mod_eq_of_lt hr]
  have hfield : w.toNat / 2 ^ F.fracBits = e := by
    rw [hw, Nat.mul_comm, Nat.mul_add_div (Nat.two_pow_pos _), Nat.div_eq_of_lt hr, Nat.add_zero]
  have hsign : w.toNat.testBit (F.expBits + F.fracBits) = false := by
    refine Nat.testBit_lt_two_pow ?_
    rwa [pow_add, ← Nat.div_lt_iff_lt_mul (Nat.two_pow_pos _), hfield]
  simp only [fpDecode, hfrac, hfield, hsign, Nat.mod_eq_of_lt hexp, if_neg he.ne]
  split <;> rfl

/-- A value of the format is a multiple of its last place. -/
theorem div_mul_two_pow_shift (hm : representable F m) : m / 2 ^ F.shift m * 2 ^ F.shift m = m := by
  refine Nat.div_mul_cancel ?_
  rcases representable_cases hm (F.shift m) with ⟨k, hk⟩ | ⟨ht, hlt⟩
  · exact ⟨k, hk.trans (Nat.mul_comm ..)⟩
  · exact absurd (F.two_pow_le_of_shift_pos ht) hlt.not_ge

theorem expMax_pos (hF : F.HoldsMagnitudes) : 0 < F.expMax := by
  have := hF.frac_lt_scale
  have := hF.scale_le
  omega

/-- The exponent and fraction fields of a value's pattern. -/
theorem fpFinPattern_fields (hF : F.HoldsMagnitudes) (hm : representable F m) (hlimit : m < F.limit) :
    ∃ e r, r < 2 ^ F.fracBits ∧ e < F.expMax ∧ fpFinPattern F m = e * 2 ^ F.fracBits + r ∧
      m = if e = 0 then r else (2 ^ F.fracBits + r) * 2 ^ (e - 1) := by
  rcases lt_or_ge m (2 ^ F.fracBits) with hsmall | hlarge
  · have hshift : F.shift m = 0 := by
      by_contra hshift
      have hle := F.two_pow_le_of_shift_pos (Nat.pos_of_ne_zero hshift)
      exact absurd hsmall ((Nat.pow_le_pow_right Nat.two_pos (Nat.le_add_right ..)).trans hle).not_gt
    exact ⟨0, m, hsmall, expMax_pos hF, by simp [fpFinPattern, hshift], rfl⟩
  · have hm0 : m ≠ 0 := ((Nat.two_pow_pos _).trans_le hlarge).ne'
    have hlog : F.fracBits ≤ m.log2 := (Nat.le_log2 hm0).mpr hlarge
    have hshift : F.fracBits + F.shift m = m.log2 := Nat.add_sub_cancel' hlog
    have htop : m.log2 < F.expMax - 1 + F.fracBits := (Nat.log2_lt hm0).mpr hlimit
    have hmul := div_mul_two_pow_shift hm
    obtain ⟨r, hr⟩ : ∃ r, m / 2 ^ F.shift m = 2 ^ F.fracBits + r := by
      refine Nat.exists_eq_add_of_le ((Nat.le_div_iff_mul_le (Nat.two_pow_pos _)).mpr ?_)
      rw [← pow_add, hshift]
      exact Nat.log2_self_le hm0
    have hlt := F.div_two_pow_shift_lt m
    rw [hr, pow_succ] at hlt
    refine ⟨F.shift m + 1, r, by omega, by omega, ?_, ?_⟩
    · rw [fpFinPattern, hr, Nat.succ_mul, Nat.add_assoc]
    · rw [if_neg (Nat.succ_ne_zero _), Nat.add_sub_cancel, ← hr, hmul]

/-- The register holds every value of the format that is not negative. -/
theorem fpDecode_fpEncode (hF : F.HoldsMagnitudes) (hm : representable F m) (hlimit : m < F.limit) :
    fpDecode F (fpEncode F (.fin false m)) = .fin false m := by
  obtain ⟨e, r, hr, he, hpattern, hval⟩ := fpFinPattern_fields hF hm hlimit
  have hfits : e * 2 ^ F.fracBits + r < 2 ^ 64 :=
    calc e * 2 ^ F.fracBits + r < (e + 1) * 2 ^ F.fracBits := by rw [Nat.succ_mul]; omega
      _ ≤ 2 ^ F.expBits * 2 ^ F.fracBits := Nat.mul_le_mul_right _ (he.trans_le (Nat.sub_le ..))
      _ = 2 ^ (F.expBits + F.fracBits) := (pow_add ..).symm
      _ ≤ 2 ^ 64 := Nat.pow_le_pow_right Nat.two_pos hF.width_lt.le
  have hw : (fpEncode F (.fin false m)).toNat = e * 2 ^ F.fracBits + r := by
    simp only [fpEncode, Bool.false_eq_true, if_false, Nat.zero_add, hpattern, BitVec.toNat_ofNat]
    exact Nat.mod_eq_of_lt hfits
  rw [fpDecode_of_fields hr he hw, ← hval]

theorem fpDecode_zero (hF : F.HoldsMagnitudes) : fpDecode F 0#64 = .fin false 0 :=
  fpDecode_of_fields (e := 0) (Nat.two_pow_pos _) (expMax_pos hF) (by simp)

end Patterns

/-! ### The frame buffer (R603) -/

theorem bufFrame_bit (buf : Vector Byte 14) (k : Nat) :
    (bufFrame 14 buf).bit k = (buf[k / 8]?.getD 0#8).getLsbD (7 - k % 8) := by
  have hwhole : buf.toList.take 14 = buf.toList := List.take_of_length_le (by simp)
  simp [bufFrame, Frame.bit, Frame.byte, hwhole]

theorem getLsbD_bitMask (b k : Nat) :
    (bitMask b).getLsbD (7 - k % 8) = decide (b % 8 = k % 8) := by
  rw [bitMask_eq_twoPow, BitVec.getLsbD_twoPow, Bool.eq_iff_iff]
  simp only [Bool.and_eq_true, decide_eq_true_eq]
  omega

/-- R603: frame bit `b` is set by a 1, and no other bit changes. -/
theorem storeBit_bit (buf : Vector Byte 14) {b : Nat} (hb : b < 112) (bit : Bool) (k : Nat) :
    (bufFrame 14 (storeBit buf b bit)).bit k =
      ((bufFrame 14 buf).bit k || (bit && decide (k = b))) := by
  rw [bufFrame_bit, bufFrame_bit]
  cases bit with
  | false => simp [storeBit]
  | true =>
    have hbyte : b / 8 < 14 := by omega
    by_cases hkb : k / 8 = b / 8
    · have hsame : b % 8 = k % 8 ↔ k = b := by omega
      simp [storeBit, hkb, hbyte, getLsbD_bitMask, hsame]
    · have hne : k ≠ b := fun h => hkb (by rw [h])
      simp [storeBit, hne, Vector.getElem?_setIfInBounds_ne (Ne.symm hkb)]

theorem bufFrame_congr {n : Nat} {buf buf' : Vector Byte 14}
    (h : ∀ k < 8 * n, (bufFrame 14 buf).bit k = (bufFrame 14 buf').bit k) :
    bufFrame n buf = bufFrame n buf' := by
  have hbytes : ∀ j < n, buf[j]?.getD 0#8 = buf'[j]?.getD 0#8 := by
    intro j hj
    refine BitVec.eq_of_getLsbD_eq fun i hi => ?_
    have hbit := h (8 * j + (7 - i)) (by omega)
    rw [bufFrame_bit, bufFrame_bit] at hbit
    rwa [show (8 * j + (7 - i)) / 8 = j by omega, show 7 - (8 * j + (7 - i)) % 8 = i by omega] at hbit
  rw [bufFrame, bufFrame, Frame.mk.injEq]
  refine ⟨rfl, List.ext_getElem (by simp) fun j hj hj' => ?_⟩
  simp only [List.length_take, Vector.length_toList] at hj
  have := hbytes j (by omega)
  simpa [show j < 14 by omega] using this

/-! ### The loop (R600) -/

theorem ringAt_le (ring : Vector Mag 240) (p : Fin 240) (k : Nat) : ringAt ring p k ≤ 65535 :=
  Nat.le_of_lt_succ (BitVec.isLt _)

/-- The loop is cut at any bit (R605 cuts it after bit 7). -/
theorem sliceBits_add (F : FpFormat) (ring : Vector Mag 240) (p : Fin 240) (start m n : Nat)
    (r : SliceRegs) :
    sliceBits F ring p start (m + n) r =
      sliceBits F ring p (start + m) n (sliceBits F ring p start m r) := by
  induction n with
  | zero => rfl
  | succ n ih =>
    rw [← Nat.add_assoc, sliceBits, sliceBits, ih, Nat.add_assoc]

/-- After `n` bits of `buf`: the frame buffer holds them and no others, and prev_avg is not above the
average of the window's cells. -/
structure SlicedTo (F : FpFormat) (sum : Nat) (buf : Payload) (n : Nat) (r : SliceRegs) : Prop where
  bits : ∀ k, (bufFrame 14 r.fbuf).bit k = (decide (k < n) && (bufFrame 14 buf).bit k)
  level : ∃ m ≤ sum * 2 ^ (F.scale - 1), fpDecode F r.prevAvg = .fin false m

section Ideal

variable {F : FpFormat} {ring : Vector Mag 240} {p : Fin 240} {high low n b : Nat} {buf : Payload}
  {r : SliceRegs}

theorem idealCells_mono {n' : Nat} (h : idealCells ring p high low buf n) (hn : n' ≤ n) :
    idealCells ring p high low buf n' := fun k hk => h k (by omega)

/-- All ideal cells have the same sum. -/
theorem ringAt_add_of_ideal (hideal : idealCells ring p high low buf n) (hb : b < 8 * n) :
    ringAt ring p (16 + 2 * b) + ringAt ring p (17 + 2 * b) = high + low := by
  obtain ⟨h0, h1⟩ := hideal b hb
  rw [h0, h1]
  split <;> omega

/-- An ideal cell after a level that does not fall decodes to its bit and leaves its average. -/
theorem sliceBit_ideal (hF : F.HoldsMagnitudes) (hlow : low < high)
    (hideal : idealCells ring p high low buf n) (hb : b < 8 * n) {m : Nat}
    (hm : m ≤ (high + low) * 2 ^ (F.scale - 1)) (hprev : fpDecode F r.prevAvg = .fin false m) :
    sliceBit F ring p r b = ⟨storeBit r.fbuf b ((bufFrame 14 buf).bit b),
      fpEncode F (cellAverage F (high + low))⟩ := by
  have hsum := ringAt_add_of_ideal hideal hb
  have hbit : decide (ringAt ring p (17 + 2 * b) < ringAt ring p (16 + 2 * b)) =
      (bufFrame 14 buf).bit b := by
    obtain ⟨h0, h1⟩ := hideal b hb
    rw [h0, h1]
    cases (bufFrame 14 buf).bit b <;> simp [hlow, hlow.le]
  have hlevel : fpGt (fpDecode F r.prevAvg) (cellAverage F (high + low)) = false := by
    rw [hprev]
    exact (FpVal.atLeast_fin false hm).fin_not_gt
  rw [sliceBit, agcBit_of_not_falling hF (ringAt_le ..) (ringAt_le ..) (.inr (by rwa [hsum])), hsum,
    hbit]

theorem SlicedTo.succ (hF : F.HoldsMagnitudes) (hlow : low < high) (hn : n ≤ 14)
    (hideal : idealCells ring p high low buf n) (hb : b < 8 * n)
    (hr : SlicedTo F (high + low) buf b r) :
    SlicedTo F (high + low) buf (b + 1) (sliceBit F ring p r b) := by
  obtain ⟨hbits, m, hm, hprev⟩ := hr
  rw [sliceBit_ideal hF hlow hideal hb hm hprev]
  refine ⟨fun k => ?_, _, le_rfl, ?_⟩
  · rw [storeBit_bit _ (by omega), hbits k]
    rcases eq_or_ne k b with rfl | hne
    · simp
    · have hlt : k < b + 1 ↔ k < b := by omega
      simp [hne, hlt]
  · have hsum : high + low < 2 ^ 17 := by
      have := ringAt_add_of_ideal hideal hb
      have := ringAt_le ring p (16 + 2 * b)
      have := ringAt_le ring p (17 + 2 * b)
      omega
    exact fpDecode_fpEncode hF (hF.representable_mul hsum _) (hF.mul_lt_limit hsum (Nat.sub_le ..))

theorem slicedTo_sliceBits (hF : F.HoldsMagnitudes) (hlow : low < high) (hn : n ≤ 14)
    (hideal : idealCells ring p high low buf n) (hr : SlicedTo F (high + low) buf 0 r) (hb : b ≤ 8 * n) :
    SlicedTo F (high + low) buf b (sliceBits F ring p 0 b r) := by
  induction b with
  | zero => exact hr
  | succ b ih =>
    rw [sliceBits, Nat.zero_add]
    exact (ih (by omega)).succ hF hlow hn hideal hb

/-- The start of an attempt under the frame scope (R112, R600). -/
theorem slicedTo_sliceStart (hF : F.HoldsMagnitudes) {cfg : Config} (hscope : cfg.prevAvgScope = .frame)
    (sum : Nat) (prev : U64) : SlicedTo F sum buf 0 (sliceStart cfg prev) := by
  refine ⟨fun k => ?_, 0, Nat.zero_le _, ?_⟩
  · have hzero : (Vector.replicate 14 0#8)[k / 8]?.getD 0#8 = 0#8 := by
      rw [Vector.getElem?_replicate]
      split <;> rfl
    simp [bufFrame_bit, sliceStart, hzero]
  · rw [sliceStart, hscope]
    exact fpDecode_zero hF

theorem bufFrame_sliceBits_ideal (hF : F.HoldsMagnitudes) (hlow : low < high) (hn : n ≤ 14)
    (hideal : idealCells ring p high low buf n) {cfg : Config} (hscope : cfg.prevAvgScope = .frame)
    (prev : U64) :
    bufFrame n (sliceBits F ring p 0 (8 * n) (sliceStart cfg prev)).fbuf = bufFrame n buf := by
  obtain ⟨hbits, -⟩ :=
    slicedTo_sliceBits hF hlow hn hideal (slicedTo_sliceStart hF hscope _ prev) le_rfl
  exact bufFrame_congr fun k hk => by rw [hbits k, decide_eq_true hk, Bool.true_and]

/-- The verdict on ideal cells in terms of the bytes they carry (R605, R606). The cells past the first byte
need to be ideal only where they are read. -/
theorem slice_ideal {cfg : Config} {d : DownlinkFormat} (hscope : cfg.prevAvgScope = .frame)
    (hlow : low < high) (hd : d = downlinkFormat cfg.df24Family buf[0]) (prev : U64)
    (hhead : idealCells ring p high low buf 1)
    (hframe : buf[0] ≠ 0#8 → d ≠ .invalid → idealCells ring p high low buf d.lenBytes) :
    (slice cfg ring p prev).1 =
      if buf[0] = 0#8 then .abort .byte0Zero
      else if d = .invalid then .abort .dfInvalid
      else if (bufFrame d.lenBytes buf).parity = 0#24 then .abort .tailZero
      else .frame (bufFrame d.lenBytes buf) := by
  have hF := holdsMagnitudes_fpFormat cfg.slicerFp
  have hbyte0 : (sliceBits (fpFormat cfg.slicerFp) ring p 0 8 (sliceStart cfg prev)).fbuf[0] =
      buf[0] := by
    rw [← bufFrame_byte0 Nat.one_pos, ← bufFrame_byte0 Nat.one_pos buf]
    exact congrArg (Frame.byte · 0) (bufFrame_sliceBits_ideal hF hlow (by norm_num) hhead hscope prev)
  have hwhole (h0 : buf[0] ≠ 0#8) (hne : d ≠ .invalid) :
      bufFrame d.lenBytes (sliceBits (fpFormat cfg.slicerFp) ring p 8 (8 * d.lenBytes - 8)
        (sliceBits (fpFormat cfg.slicerFp) ring p 0 8 (sliceStart cfg prev))).fbuf =
      bufFrame d.lenBytes buf := by
    have hlen := DownlinkFormat.lenBytes_of_ne_invalid hne
    have hcut := sliceBits_add (fpFormat cfg.slicerFp) ring p 0 8 (8 * d.lenBytes - 8)
      (sliceStart cfg prev)
    rw [Nat.add_sub_cancel' (by omega), Nat.zero_add] at hcut
    rw [← hcut]
    exact bufFrame_sliceBits_ideal hF hlow (by omega) (hframe h0 hne) hscope prev
  have hparity (hne : d ≠ .invalid) := tailZero_iff
    (wholeFrame_bufFrame (DownlinkFormat.lenBytes_of_ne_invalid hne) buf)
  rcases slice_cases cfg ring p prev _ rfl d (by rw [hbyte0, hd]) _ rfl with
    ⟨h0, hs⟩ | ⟨h0, hi, hs⟩ | ⟨h0, hi, ht, hs⟩ | ⟨h0, hi, ht, hs⟩ <;> rw [hbyte0] at h0 <;> rw [hs]
  · rw [if_pos h0]
  · rw [if_neg h0, if_pos hi]
  · rw [hwhole h0 hi, hparity hi] at ht
    rw [if_neg h0, if_neg hi, if_pos ht]
  · rw [hwhole h0 hi, ← Bool.not_eq_true, hparity hi] at ht
    rw [if_neg h0, if_neg hi, if_neg ht, hwhole h0 hi]

end Ideal

/-- Settles O33: the four clauses are the four branches of `slice_ideal`. -/
theorem idealCellsSliceToTheirBytes : Obligations.IdealCellsSliceToTheirBytes := by
  unfold Obligations.IdealCellsSliceToTheirBytes
  intro cfg ring p prev buf high low d hscope hlow hd
  have hhead (hi : d ≠ .invalid) (h : idealCells ring p high low buf d.lenBytes) :
      idealCells ring p high low buf 1 :=
    idealCells_mono h (by have := DownlinkFormat.lenBytes_of_ne_invalid hi; omega)
  refine ⟨fun h h0 => ?zeroByte, fun h h0 hi => ?invalid, fun h h0 hi ht => ?zeroTail,
    fun h h0 hi ht => ?frame⟩
  case zeroByte => rw [slice_ideal hscope hlow hd prev h (fun hne => absurd h0 hne), if_pos h0]
  case invalid =>
    rw [slice_ideal hscope hlow hd prev h (fun _ hne => absurd hi hne), if_neg h0, if_pos hi]
  case zeroTail =>
    rw [slice_ideal hscope hlow hd prev (hhead hi h) (fun _ _ => h), if_neg h0, if_neg hi, if_pos ht]
  case frame =>
    rw [slice_ideal hscope hlow hd prev (hhead hi h) (fun _ _ => h), if_neg h0, if_neg hi, if_neg ht]

end Sys2Proof.Machine
end

section
/-!
PROOFS of the trust filter family (46_trust_filter.md R650-R655, R659): what the filter makes of a PI and
of an AP frame, each way of R651 and R652 as an equation, and how many sightings an AP address needs.
-/

namespace Sys2Proof.Machine

open Sys2Proof.Claims

/-! ### Insertion under capacity (R655) -/

theorem hasRoom_iff_fits {capacity : Option Nat} {n : Nat} :
    hasRoom capacity n = true ↔ fits capacity n := hasRoom_iff capacity n

theorem fits_of_unbounded {capacity : Option Nat} (h : capacity = none) (n : Nat) :
    fits capacity n := by
  simp [fits, h]

theorem putTrusted_of_fits {s : State} {a : U24}
    (h : (KeyMap.find s.trusted a).isSome = true ∨ fits s.cfg.trustedCapacity s.trusted.length) :
    putTrusted s a = { s with trusted := KeyMap.put s.trusted a s.now } :=
  if_pos ((Bool.or_eq_true _ _).mpr (h.imp_right hasRoom_iff_fits.mpr))

theorem putTrusted_of_not_fits {s : State} {a : U24} (hnone : KeyMap.find s.trusted a = none)
    (h : ¬fits s.cfg.trustedCapacity s.trusted.length) : putTrusted s a = setOvf s := by
  rw [← hasRoom_iff_fits] at h
  exact if_neg (by simp [KeyMap.has, hnone, h])

/-! ### The emitted record (R654) -/

theorem frameRecord_of_pi {d : DownlinkFormat} (hd : d.frameClass = .pi) (cfg : Config) (f : Frame)
    (a : U24) :
    frameRecord cfg d f a =
      ⟨if cfg.emitCorrectedPayload = true then ((piRepair cfg d f).getD f).bytes else f.bytes,
        f.len, d.value, a⟩ := by
  rw [frameRecord, emitPayload, hd]
  cases cfg.emitCorrectedPayload with
  | false => rfl
  | true => cases piRepair cfg d f <;> rfl

theorem frameRecord_of_ap {d : DownlinkFormat} (hd : d.frameClass = .ap) (cfg : Config) (f : Frame)
    (a : U24) : frameRecord cfg d f a = ⟨f.bytes, f.len, d.value, a⟩ := by
  rw [frameRecord, emitPayload, if_neg (by simp [hd])]

/-! ### PI frames (R651) -/

section Validate

variable {s : State} {f : Frame} {d : DownlinkFormat}

theorem validate_of_pi (hd : d = downlinkFormat s.cfg.df24Family (f.byte 0))
    (hclass : d.frameClass = .pi) : validate s f = validatePi s d f := by
  rw [validate_eq, ← hd, if_pos hclass]

theorem validatePi_of_noAa (h : d = .df18 ∧ frameCf f ≠ 0#3) : validatePi s d f = (.piNoAa, s) :=
  if_pos h

theorem validatePi_of_uncorrectable (h : ¬(d = .df18 ∧ frameCf f ≠ 0#3))
    (ha : getIcao s.cfg f = 0#24) : validatePi s d f = (.piUncorrectable, s) :=
  (if_neg h).trans (if_pos ha)

theorem validatePi_of_address (h : ¬(d = .df18 ∧ frameCf f ≠ 0#3)) (ha : getIcao s.cfg f ≠ 0#24) :
    validatePi s d f = (.emitPi, emitFrame
      (dropCandidate (putTrusted s (getIcao s.cfg f)) (getIcao s.cfg f)) d f (getIcao s.cfg f)) :=
  (if_neg h).trans (if_neg ha)

/-! ### AP frames (R652) -/

theorem validate_of_ap (hd : d = downlinkFormat s.cfg.df24Family (f.byte 0))
    (hclass : d.frameClass = .ap) : validate s f = validateAp s d f := by
  rw [validate_eq, ← hd, if_neg (by simp [hclass])]

theorem sightings_eq (s : State) (a : U24) :
    sightings s a = ((KeyMap.find s.candidate a).map fun e => e.validFrames.toNat).getD 0 := by
  rw [sightings]
  cases KeyMap.find s.candidate a <;> rfl

theorem sightings_of_present {s : State} {a : U24} {e : CandidateEntry}
    (h : KeyMap.find s.candidate a = some e) : sightings s a = e.validFrames.toNat := by
  rw [sightings, h]

theorem sightings_of_absent {s : State} {a : U24} (h : KeyMap.find s.candidate a = none) :
    sightings s a = 0 := by
  rw [sightings, h]

theorem validateAp_of_trusted (h : (KeyMap.find s.trusted (syndrome24 f)).isSome = true) :
    validateAp s d f = (.emitApTrusted,
      emitFrame { s with trusted := KeyMap.put s.trusted (syndrome24 f) s.now } d f
        (syndrome24 f)) :=
  if_pos h

theorem validateAp_of_threshold (hnone : KeyMap.find s.trusted (syndrome24 f) = none)
    (hT : (threshold s.cfg s.level).toNat ≤ sightings s (syndrome24 f) + 1) :
    validateAp s d f = (.emitApPromoted,
      emitFrame (putTrusted (dropCandidate s (syndrome24 f)) (syndrome24 f)) d f
        (syndrome24 f)) :=
  (if_neg (by simp [KeyMap.has, hnone])).trans (if_pos hT)

/-- Below the threshold a new candidate is counted like a known one, from the count 0, if there is room
for it. -/
theorem validateAp_of_counted (hnone : KeyMap.find s.trusted (syndrome24 f) = none)
    (hT : sightings s (syndrome24 f) + 1 < (threshold s.cfg s.level).toNat)
    (hroom : (KeyMap.find s.candidate (syndrome24 f)).isSome = true ∨
      fits s.cfg.candidateCapacity s.candidate.length) :
    validateAp s d f = (.apCandidate,
      { s with candidate := (KeyMap.put s.candidate (syndrome24 f)
          ⟨s.now, BitVec.ofNat 32 (sightings s (syndrome24 f) + 1)⟩) }) := by
  refine (if_neg (by simp [KeyMap.has, hnone])).trans ((if_neg (by omega)).trans ?_)
  cases hC : KeyMap.find s.candidate (syndrome24 f) with
  | some e => exact if_pos (by simp [KeyMap.has, hC])
  | none =>
    refine (if_neg (by simp [KeyMap.has, hC])).trans ?_
    rw [putCandidate, if_pos (hasRoom_iff_fits.mpr (hroom.resolve_left (by simp [hC]))),
      sightings_of_absent hC]

theorem validateAp_of_candFull (hnone : KeyMap.find s.trusted (syndrome24 f) = none)
    (hT : sightings s (syndrome24 f) + 1 < (threshold s.cfg s.level).toNat)
    (hC : KeyMap.find s.candidate (syndrome24 f) = none)
    (hfull : ¬fits s.cfg.candidateCapacity s.candidate.length) :
    validateAp s d f = (.candFull, setOvf s) := by
  rw [← hasRoom_iff_fits] at hfull
  exact (if_neg (by simp [KeyMap.has, hnone])).trans ((if_neg (by omega)).trans
    ((if_neg (by simp [KeyMap.has, hC])).trans (if_neg hfull)))

end Validate

/-- Settles O22. -/
theorem piFrameMovesItsAddressToTrusted : Obligations.PiFrameMovesItsAddressToTrusted := by
  unfold Obligations.PiFrameMovesItsAddressToTrusted
  intro s f d a r hd hpi ha hr
  have hclass : d.frameClass = .pi := by
    have hall : ∀ d' ∈ [DownlinkFormat.df11, .df17, .df18], d'.frameClass = .pi := by decide
    exact hall d hpi
  rw [validate_of_pi hd hclass]
  simp only [ne_eq, ← frameCf_eq_zero_iff]
  subst ha
  rw [← frameRecord_of_pi hclass] at hr
  subst hr
  refine ⟨fun h18 hcf => validatePi_of_noAa ⟨h18, hcf⟩, validatePi_of_uncorrectable,
    fun hcf h0 hroom => ?_, fun hcf h0 hnone hfull => ?_⟩
  · rw [validatePi_of_address hcf h0, putTrusted_of_fits hroom]
    rfl
  · rw [validatePi_of_address hcf h0, putTrusted_of_not_fits hnone hfull]
    rfl

/-- Settles O23. -/
theorem apFrameIsTrustedAtTheThreshold : Obligations.ApFrameIsTrustedAtTheThreshold := by
  unfold Obligations.ApFrameIsTrustedAtTheThreshold
  intro s f d a r n hd hap ha hr hn
  have hclass : d.frameClass = .ap := by
    have hall : ∀ d' ∈ [DownlinkFormat.df0, .df4, .df5, .df16, .df20, .df21, .df24],
        d'.frameClass = .ap := by decide
    exact hall d hap
  subst ha
  rw [validate_of_ap hd hclass]
  rw [← frameRecord_of_ap hclass s.cfg] at hr
  rw [← sightings_eq] at hn
  subst hr hn
  refine ⟨validateAp_of_trusted, fun hnone hT hroom => ?_, fun hnone hT hfull => ?_,
    fun hnone hT hC => validateAp_of_counted hnone hT (.inl hC), fun hnone hT hC hroom => ?_,
    validateAp_of_candFull⟩
  · rw [validateAp_of_threshold hnone hT,
      putTrusted_of_fits (s := dropCandidate s _) (.inr hroom)]
    rfl
  · rw [validateAp_of_threshold hnone hT,
      putTrusted_of_not_fits (s := dropCandidate s _) hnone hfull]
    rfl
  · rw [validateAp_of_counted hnone hT (.inr hroom), sightings_of_absent hC]

/-! ### Sightings of one AP address (R659 item 3) -/

/-- What `n` sightings of the address `a` below the threshold make of the state `s`. -/
structure Sighted (s : State) (a : U24) (n : Nat) (t : State) : Prop where
  cfg : t.cfg = s.cfg
  level : t.level = s.level
  out : t.out = s.out
  held : t.held = none
  trusted : KeyMap.find t.trusted a = none
  candidate : KeyMap.wf t.candidate = true
  count : sightings t a = n

/-- A sighting is judged as an AP frame. -/
theorem exec_apSighting {s : State} {i : Instr} {d : DownlinkFormat} {f : Frame} {a : U24}
    (hs : s.held = none) (hi : ApSighting s.cfg.df24Family i d f a) :
    syndrome24 f = a ∧ d.frameClass = .ap ∧ exec i s = .next (validateAp s d f).2 := by
  obtain ⟨hrow, hclass, h0, hp, hsyn⟩ := hi
  refine ⟨hsyn, hclass, ?_⟩
  rw [exec_of_receives_judged hs hrow h0 hp,
    validate_of_ap (downlinkFormat_of_receives hrow).symm hclass]

section Sightings

variable {s t : State} {a : U24} {i : Instr} {d : DownlinkFormat} {f : Frame} {n : Nat}

/-- The time input of the next sighting is no part of it. -/
theorem Sighted.atTime (h : Sighted s a n t) (now : U64) : Sighted s a n { t with now := now } :=
  ⟨h.cfg, h.level, h.out, h.held, h.trusted, h.candidate, h.count⟩

/-- One more sighting below the threshold. -/
theorem Sighted.counted (h : Sighted s a n t) (hcap : s.cfg.candidateCapacity = none)
    (hi : ApSighting s.cfg.df24Family i d f a) (hT : n + 1 < (threshold s.cfg s.level).toNat) :
    ∃ u, exec i t = .next u ∧ Sighted s a (n + 1) u := by
  obtain ⟨hcfg, hlevel, hout, hheld, htrusted, hcandidate, rfl⟩ := h
  have hlt := hT.trans (BitVec.isLt _)
  rw [← hcfg] at hi hcap
  rw [← hcfg, ← hlevel] at hT
  obtain ⟨rfl, -, hx⟩ := exec_apSighting hheld hi
  rw [validateAp_of_counted htrusted hT (.inr (fits_of_unbounded hcap _))] at hx
  refine ⟨_, hx, hcfg, hlevel, hout, hheld, htrusted, KeyMap.wf_put _ _ _ hcandidate, ?_⟩
  rw [sightings_of_present (KeyMap.find_put_self _ _ _), BitVec.toNat_ofNat, Nat.mod_eq_of_lt hlt]

theorem sightedAt_below (hcap : s.cfg.candidateCapacity = none) (l : List (Instr × U64))
    (hl : ∀ x ∈ l, ∃ d f, ApSighting s.cfg.df24Family x.1 d f a) (h : Sighted s a n t)
    (hT : n + l.length < (threshold s.cfg s.level).toNat) :
    ∃ u, sightedAt l t = .next u ∧ Sighted s a (n + l.length) u := by
  induction l generalizing t n with
  | nil => exact ⟨t, rfl, h⟩
  | cons x more ih =>
    obtain ⟨i, now⟩ := x
    obtain ⟨⟨d, f, hi⟩, hmore⟩ := List.forall_mem_cons.mp hl
    have hlen : n + ((i, now) :: more).length = n + 1 + more.length := by
      rw [List.length_cons]
      omega
    rw [hlen] at hT ⊢
    obtain ⟨u, hx, hu⟩ := (h.atTime now).counted hcap hi (by omega)
    rw [sightedAt, hx]
    exact ih hmore hu hT

/-- The sighting that reaches the threshold. -/
theorem Sighted.promoted (h : Sighted s a n t) (hcap : s.cfg.trustedCapacity = none)
    (hi : ApSighting s.cfg.df24Family i d f a) (hT : n + 1 = (threshold s.cfg s.level).toNat) :
    ∃ u, exec i t = .next u ∧ u.out = s.out ++ [⟨f.bytes, f.len, d.value, a⟩] ∧
      KeyMap.find u.trusted a = some t.now ∧ KeyMap.find u.candidate a = none := by
  obtain ⟨hcfg, hlevel, hout, hheld, htrusted, hcandidate, rfl⟩ := h
  rw [← hcfg] at hi hcap
  rw [← hcfg, ← hlevel] at hT
  obtain ⟨rfl, hclass, hx⟩ := exec_apSighting hheld hi
  rw [validateAp_of_threshold htrusted hT.ge,
    putTrusted_of_fits (s := dropCandidate t _) (.inr (fits_of_unbounded hcap _))] at hx
  refine ⟨_, hx, ?_, KeyMap.find_put_self .., KeyMap.find_remove_self _ _ hcandidate⟩
  rw [emitFrame_out, frameRecord_of_ap hclass]
  exact congrArg (· ++ _) hout

end Sightings

/-- Settles O24. -/
theorem promotionTakesExactlyTheThreshold : Obligations.PromotionTakesExactlyTheThreshold := by
  unfold Obligations.PromotionTakesExactlyTheThreshold
  rintro s a l ⟨-, hwf, -⟩ hheld hcapT hcapC hl htrusted hcandidate hT
  have hstart : Sighted s a 0 s :=
    ⟨rfl, rfl, rfl, hheld, htrusted, hwf, sightings_of_absent hcandidate⟩
  obtain ⟨t, hx, ht⟩ := sightedAt_below hcapC l hl hstart (by rwa [Nat.zero_add])
  rw [Nat.zero_add] at ht
  exact ⟨t, hx, ht.out, ht.held, ht.trusted, (sightings_eq t a).symm.trans ht.count,
    fun hlast i d f n hi => (ht.atTime n).promoted hcapT hi hlast⟩

end Sys2Proof.Machine
end

section
/-!
PROOFS of the trust filter family, the sweeps and the trust commands (46_trust_filter.md R656-R661): what
SWEEP and the sweep timer remove, what INJECT and QUERY answer, and that nothing but a sweep or reset
takes a key out of Trusted.
-/

namespace Sys2Proof.Machine

open Sys2Proof.Claims

/-! ### The sweep (R656) -/

theorem keeps_eq (s : State) (seen : U64) :
    keeps s seen =
      decide (s.now.toNat - seen.toNat ≤ s.timeoutS.toNat * s.cfg.ticksPerSecond) := by
  rw [keeps, timeoutTicks, ← decide_not]
  exact decide_eq_decide.mpr Nat.not_lt

theorem swept_sweepMaps {s : State} (hT : KeyMap.wf s.trusted = true)
    (hC : KeyMap.wf s.candidate = true) : Swept s (sweepMaps s) := by
  refine ⟨fun a => ?_, fun a => ?_, KeyMap.wf_filter _ _ hT, KeyMap.wf_filter _ _ hC⟩
  · rw [sweepMaps_trusted, KeyMap.find_filter _ _ _ hT]
    simp only [keeps_eq]
  · rw [sweepMaps_candidate, KeyMap.find_filter _ _ _ hC]
    simp only [keeps_eq]

/-- The number of removed entries is what the lengths of the maps lose. -/
theorem sweptCount_eq (s : State) :
    sweptCount s = s.trusted.length + s.candidate.length
      - ((sweepMaps s).trusted.length + (sweepMaps s).candidate.length) := by
  have hT := s.trusted.length_eq_countP_add_countP (fun e => keeps s e.2)
  have hC := s.candidate.length_eq_countP_add_countP (fun e => keeps s e.2.lastSeen)
  rw [sweepMaps_trusted, sweepMaps_candidate, ← List.countP_eq_length_filter,
    ← List.countP_eq_length_filter, sweptCount]
  simp only [Bool.not_eq_true, Bool.decide_eq_false] at hT hC
  omega

/-- An entry that a sweep takes out of Trusted is older than the timeout, whether the map is canonical or
not. -/
theorem stale_of_swept {s : State} {a : U24} {seen : U64}
    (hseen : KeyMap.find s.trusted a = some seen)
    (hgone : KeyMap.find (sweepMaps s).trusted a = none) :
    s.timeoutS.toNat * s.cfg.ticksPerSecond < s.now.toNat - seen.toNat := by
  by_contra hle
  have hkeep : keeps s seen = true := by
    rw [keeps_eq]
    exact decide_eq_true (Nat.not_lt.mp hle)
  have hmem : (a, seen) ∈ (sweepMaps s).trusted :=
    List.mem_filter.mpr ⟨KeyMap.mem_of_find _ hseen, hkeep⟩
  have hhas := (KeyMap.has_iff_mem _ a).mpr ⟨seen, hmem⟩
  rw [(KeyMap.has_eq_false_iff _ _).mpr hgone] at hhas
  exact Bool.false_ne_true hhas

/-! ### SWEEP (R658) -/

theorem decode_sweep {c : Command} (hop : c.op = 0x06#8) :
    decode (.command c) = .sweep c.fields c.imm := by
  simp [decode, decodeCommand, hop]

theorem exec_sweep {c : Command} (hop : c.op = 0x06#8) (s : State) :
    (c.hdr = 0x06#32 ∧ c.imm = 0#32 → exec (.sweep c.fields c.imm) s =
      .next (respond (sweepMaps s) (BitVec.ofNat 32 (sweptCount s)))) ∧
    (¬(c.hdr = 0x06#32 ∧ c.imm = 0#32) →
      exec (.sweep c.fields c.imm) s = .next (refusedIllegal s)) := by
  have hlegal : badPlain c.fields c.imm = false ↔ c.hdr = 0x06#32 ∧ c.imm = 0#32 :=
    badPlain_fields_eq_false_iff hop
  rw [← hlegal, Bool.not_eq_false, exec, execSweep]
  exact ⟨fun h => by rw [h]; rfl, fun h => by rw [h]; rfl⟩

/-- Settles O19: the swept state is `sweepMaps s`. -/
theorem sweepRemovesTheStaleEntries : Obligations.SweepRemovesTheStaleEntries := by
  unfold Obligations.SweepRemovesTheStaleEntries
  intro c s hop
  obtain ⟨hanswer, hrefuse⟩ := exec_sweep hop s
  refine ⟨decode_sweep hop, ?_, hrefuse⟩
  rintro ⟨hhdr, himm, hT, hC⟩
  refine ⟨sweepMaps s, ?_, swept_sweepMaps hT hC⟩
  rw [hanswer ⟨hhdr, himm⟩, sweptCount_eq]
  rfl

/-! ### The sweep timer (R657) -/

theorem addTicks_of_lt {base : U64} {period : Nat} (h : base.toNat + period < 2 ^ 64) :
    addTicks base period = base + BitVec.ofNat 64 period := by
  rw [addTicks, if_pos h, BitVec.ofNat_add, BitVec.ofNat_toNat, BitVec.setWidth_eq]

theorem step_of_still {s t : State} (hw : s.cfg.wf = true) (h : nextMove s = .still t) :
    step s = .next t := by
  simp [step, hw, h]

theorem step_of_acts {s t : State} (hw : s.cfg.wf = true) (h : nextMove s = .acts t) :
    step s = .next t := by
  simp [step, hw, h]

theorem nextMove_of_sched {s : State} {u : Turn} {rest : List Turn} (h : s.sched = u :: rest) :
    nextMove s = agentMove { s with sched := rest } u := by
  rw [nextMove, h]

theorem timerMove_early {s : State} {now : U64} (h : now.toNat < s.nextSweep.toNat) :
    timerMove s now = .still s :=
  if_neg (Nat.not_le.mpr h)

theorem timerMove_due {s : State} {now : U64} (h : s.nextSweep.toNat ≤ now.toNat)
    (hnow : s.now.toNat ≤ now.toNat) :
    timerMove s now = .acts (timerStep { s with now := now }) :=
  (if_pos h).trans (atTime_of_le s now _ hnow)

/-- Settles O47. -/
theorem timerStepSweepsAndAdvances : Obligations.TimerStepSweepsAndAdvances := by
  unfold Obligations.TimerStepSweepsAndAdvances
  intro s now rest hw hsched hnow hsum hT hC
  have hmove : nextMove s = timerMove { s with sched := rest } now := nextMove_of_sched hsched
  refine ⟨fun hearly => step_of_still hw (hmove.trans (timerMove_early hearly)), fun hdue => ?_⟩
  refine ⟨_, step_of_acts hw (hmove.trans (timerMove_due hdue hnow)), ?_, swept_sweepMaps hT hC⟩
  rw [← addTicks_of_lt hsum]
  rfl

/-! ### QUERY (R661) -/

theorem decode_query {c : Command} (hop : c.op = 0x0E#8) :
    decode (.command c) = .query c.fields (c.imm.extractLsb' 24 8) (c.imm.extractLsb' 0 24) := by
  simp [decode, decodeCommand, hop]

/-- A command word of which imm[23:0] alone is used is legal if its header is the operation code and its
immediate word fits in 24 bits. -/
theorem badImm_imm24_eq_false_iff {c : Command} {k : Byte} (hop : c.op = k) :
    badImm c.fields 8 (c.imm.extractLsb' 24 8) = false ↔
      c.hdr = encodeHdr k ⟨0#20, 0#4⟩ ∧ c.imm.toNat < 2 ^ 24 := by
  rw [badImm_eq_false, legalImm, hdr_eq_encodeHdr_iff hop,
    ← extractHigh_eq_zero_iff (m := 8) (n := 24) c.imm]
  simp

theorem exec_query {c : Command} (hop : c.op = 0x0E#8) (a : U24) (s : State) :
    (c.hdr = 0x0E#32 ∧ c.imm.toNat < 2 ^ 24 →
      exec (.query c.fields (c.imm.extractLsb' 24 8) a) s = .next (answered s (queryWord s a))) ∧
    (¬(c.hdr = 0x0E#32 ∧ c.imm.toNat < 2 ^ 24) →
      exec (.query c.fields (c.imm.extractLsb' 24 8) a) s = .next (refusedIllegal s)) :=
  runCommand_answer (badImm_imm24_eq_false_iff hop) s _

/-- The two flags of QUERY as a number. -/
theorem flagBit_pair (b t : Bool) :
    flagBit b <<< 1 ||| flagBit t = BitVec.ofNat 32 (2 * bitNumber b + bitNumber t) := by
  decide +revert

/-- The count lies above the flags, so the words that are or-ed are added. -/
theorem queryWord_eq (s : State) (a : U24) :
    queryWord s a = BitVec.ofNat 32 (256 * min (sightings s a) 0xFFFFFF
      + 2 * bitNumber (KeyMap.has s.candidate a) + bitNumber (KeyMap.has s.trusted a)) := by
  generalize hx : 2 * bitNumber (KeyMap.has s.candidate a) + bitNumber (KeyMap.has s.trusted a) = x
  have hlt : x < 2 ^ 8 := by
    have hbit (b : Bool) : bitNumber b ≤ 1 := by cases b <;> decide
    have hC := hbit (KeyMap.has s.candidate a)
    have hT := hbit (KeyMap.has s.trusted a)
    omega
  rw [queryWord, BitVec.or_assoc, flagBit_pair, Nat.add_assoc, hx]
  generalize min (sightings s a) 0xFFFFFF = n
  have hshift : BitVec.ofNat 32 n <<< 8 = BitVec.ofNat 32 (n <<< 8) := by
    rw [BitVec.shiftLeft_eq_mul_twoPow, Nat.shiftLeft_eq, BitVec.ofNat_mul]
    rfl
  rw [hshift, ← BitVec.ofNat_or, ← Nat.shiftLeft_add_eq_or_of_lt hlt, Nat.shiftLeft_eq,
    Nat.mul_comm]

/-- Settles O20. -/
theorem queryReportsTheTrustState : Obligations.QueryReportsTheTrustState := by
  unfold Obligations.QueryReportsTheTrustState
  intro c s hop
  refine ⟨_, _, decode_query hop, fun hlegal => ?_, (exec_query hop _ s).2⟩
  have hanswer := (exec_query hop (c.imm.extractLsb' 0 24) s).1 hlegal
  rw [queryWord_eq] at hanswer
  refine ⟨?_, fun e he => ?_, fun hnone => ?_⟩
  · rw [BitVec.extractLsb'_toNat, Nat.shiftRight_zero, Nat.mod_eq_of_lt hlegal.2]
  · rw [hanswer, sightings_of_present he, KeyMap.has, he]
    rfl
  · rw [hanswer, sightings_of_absent hnone, KeyMap.has, hnone, Nat.zero_min, Option.isSome_none,
      bitNumber, if_neg Bool.false_ne_true, Nat.zero_add]
    rfl

/-! ### INJECT (R660) -/

theorem decode_inject {c : Command} (hop : c.op = 0x0D#8) :
    decode (.command c) = .inject c.fields c.imm c.payload := by
  simp [decode, decodeCommand, hop]

theorem exec_inject_of_free {s : State} (hs : s.held = none) (h : Hdr) (imm : U32) (p : Payload) :
    exec (.inject h imm p) s = runCommand (badLenForm h imm) s.run
      (respond (injectFrame s h.len p).2 (injectFrame s h.len p).1.code) s :=
  whenPortFree_of_free hs _

section InjectFrame

variable {s : State} {l : BitVec 4} {p : Payload} {d : DownlinkFormat}

theorem injectFrame_of_byte0 (h0 : p[0] = 0#8) : injectFrame s l p = (.byte0Zero, s) := if_pos h0

theorem injectFrame_of_invalid (h0 : p[0] ≠ 0#8)
    (hd : downlinkFormat s.cfg.df24Family p[0] = .invalid) : injectFrame s l p = (.dfInvalid, s) :=
  (if_neg h0).trans (if_pos hd)

theorem injectFrame_of_len (h0 : p[0] ≠ 0#8) (hd : d = downlinkFormat s.cfg.df24Family p[0])
    (hne : d ≠ .invalid) (hl : l.toNat ≠ d.lenBytes) : injectFrame s l p = (.lenMismatch, s) := by
  subst hd
  exact (if_neg h0).trans ((if_neg hne).trans (if_pos hl))

/-- A frame of its format's length is judged by its last three bytes (R606). -/
theorem injectFrame_of_whole (h0 : p[0] ≠ 0#8) (hd : d = downlinkFormat s.cfg.df24Family p[0])
    (hne : d ≠ .invalid) (hl : l.toNat = d.lenBytes) :
    injectFrame s l p =
      if (commandFrame l p).parity = 0#24 then (.tailZero, s) else validate s (commandFrame l p) := by
  have htail := tailZero_iff (wholeFrame_commandFrame
    (hl ▸ DownlinkFormat.lenBytes_of_ne_invalid hne) p)
  subst hd
  simp only [injectFrame, if_neg h0, if_neg hne, ne_eq, hl, not_true_eq_false, if_false, htail]

end InjectFrame

/-- Settles O21. -/
theorem injectJudgesTheGivenFrame : Obligations.InjectJudgesTheGivenFrame := by
  unfold Obligations.InjectJudgesTheGivenFrame
  intro c s f d hop hs hf hd
  obtain rfl : f = commandFrame c.fields.len c.payload := hf
  have hx := exec_inject_of_free hs c.fields c.imm c.payload
  have hlegal := badLenForm_fields_eq_false_iff c
  refine ⟨decode_inject hop, fun h => ?_, fun h => ?_⟩
  · rw [← hlegal, Bool.not_eq_false] at h
    rw [hx, h]
    rfl
  · rw [hlegal.mpr h] at hx
    have htaken (hr : s.run = false) : exec (.inject c.fields c.imm c.payload) s =
        .next (respond (injectFrame s c.fields.len c.payload).2
          (injectFrame s c.fields.len c.payload).1.code) := by rw [hx, hr, runCommand_legal]
    refine ⟨fun hr => ?_, fun hr h0 => ?_, fun hr h0 hi => ?_, fun hr h0 hi hl => ?_,
      fun hr h0 hi hl hp => ?_, fun hr h0 hi hl hp => ?_⟩
    · rw [hx, hr, runCommand_misused]
      rfl
    · rw [htaken hr, injectFrame_of_byte0 h0]
      rfl
    · rw [htaken hr, injectFrame_of_invalid h0 (hd ▸ hi)]
      rfl
    · rw [htaken hr, injectFrame_of_len (l := c.fields.len) h0 hd hi hl]
      rfl
    · rw [htaken hr, injectFrame_of_whole (l := c.fields.len) h0 hd hi hl, if_pos hp]
      rfl
    · rw [htaken hr, injectFrame_of_whole (l := c.fields.len) h0 hd hi hl, if_neg hp]
      rfl

/-! ### What keeps the keys of Trusted (R659 item 1) -/

/-- No key of Trusted is lost on the way from `s` to `t`. -/
def KeepsTrusted (s t : State) : Prop :=
  ∀ a, KeyMap.has s.trusted a = true → KeyMap.has t.trusted a = true

section KeepsTrusted

variable {s t u : State}

theorem KeepsTrusted.of_eq (h : t.trusted = s.trusted) : KeepsTrusted s t :=
  fun _ ha => h ▸ ha

theorem KeepsTrusted.of_put {k : U24} {v : U64} (h : t.trusted = KeyMap.put s.trusted k v) :
    KeepsTrusted s t := by
  intro a ha
  rw [h]
  by_cases hk : a = k
  · rw [hk, KeyMap.has_put_self]
  · rwa [KeyMap.has_put_ne _ _ hk]

theorem putTrusted_keepsTrusted (s : State) (a : U24) : KeepsTrusted s (putTrusted s a) := by
  rcases putTrusted_cases s a with ⟨-, h⟩ | ⟨-, -, h⟩ <;> rw [h]
  · exact .of_put rfl
  · exact .of_eq rfl

theorem putCandidate_snd_trusted (s : State) (a : U24) (r : CandidateEntry) :
    (putCandidate s a r).2.trusted = s.trusted := by
  rcases putCandidate_cases s a r with ⟨-, h⟩ | ⟨-, h⟩ <;> rw [h]
  rfl

theorem validatePi_keepsTrusted (s : State) (d : DownlinkFormat) (f : Frame) :
    KeepsTrusted s (validatePi s d f).2 := by
  rcases validatePi_cases s d f with ⟨-, h⟩ | ⟨-, -, h⟩ | ⟨-, -, h⟩ <;> rw [h]
  · exact .of_eq rfl
  · exact .of_eq rfl
  · exact putTrusted_keepsTrusted s _

theorem validateAp_keepsTrusted (s : State) (d : DownlinkFormat) (f : Frame) :
    KeepsTrusted s (validateAp s d f).2 := by
  rcases validateAp_cases s d f with ⟨-, h⟩ | ⟨-, -, h⟩ | ⟨-, -, -, h⟩ | ⟨-, -, -, h⟩ <;> rw [h]
  · exact .of_put rfl
  · exact putTrusted_keepsTrusted (dropCandidate s _) _
  · exact .of_eq rfl
  · exact .of_eq (putCandidate_snd_trusted s _ _)

theorem validate_keepsTrusted (s : State) (f : Frame) : KeepsTrusted s (validate s f).2 := by
  rw [validate_eq]
  split
  · exact validatePi_keepsTrusted s _ f
  · exact validateAp_keepsTrusted s _ f

theorem receiveFrame_keepsTrusted (s : State) (f : Frame) :
    KeepsTrusted s (receiveFrame s f).2 := by
  rcases receiveFrame_cases s f with ⟨-, h⟩ | ⟨-, -, h⟩ | ⟨-, -, -, h⟩ | ⟨-, -, -, h⟩ <;> rw [h]
  case inr.inr.inr => exact validate_keepsTrusted s f
  all_goals exact .of_eq rfl

theorem injectFrame_keepsTrusted (s : State) (l : BitVec 4) (p : Payload) :
    KeepsTrusted s (injectFrame s l p).2 := by
  rcases injectFrame_cases s l p with
    ⟨-, h⟩ | ⟨-, -, h⟩ | ⟨-, -, -, h⟩ | ⟨-, -, -, -, h⟩ | ⟨-, -, -, -, h⟩ <;> rw [h]
  case inr.inr.inr.inr => exact validate_keepsTrusted s _
  all_goals exact .of_eq rfl

theorem sampleStep_keepsTrusted (s : State) (i q : Byte) :
    KeepsTrusted s (sampleStep s i q).2 := by
  rcases sampleStep_cases s i q with ⟨-, h⟩ | ⟨-, _, -, h⟩ | ⟨-, f, -, h⟩ <;> rw [h]
  · exact .of_eq rfl
  · exact .of_eq rfl
  · exact validate_keepsTrusted (sliceWindow (writeSample s i q)).2 f

theorem runCommand_keepsTrusted {bad misused : Bool} {v : U32}
    (h : runCommand bad misused (respond u v) s = .next t) (hu : KeepsTrusted s u) :
    KeepsTrusted s t := by
  rcases runCommand_cases bad misused (respond u v) s with ⟨-, hx⟩ | ⟨-, -, hx⟩ | ⟨-, -, hx⟩ <;>
    cases hx.symm.trans h
  · exact .of_eq rfl
  · exact .of_eq rfl
  · exact hu

theorem whenPortFree_keepsTrusted {x : Host.Outcome State Fault Refusal}
    (h : whenPortFree s x = .next t) (hx : x = .next t → KeepsTrusted s t) : KeepsTrusted s t := by
  rcases whenPortFree_cases s x with ⟨-, -, hw⟩ | ⟨-, hw⟩
  · cases hw.symm.trans h
    exact .of_eq rfl
  · exact hx (hw.symm.trans h)

theorem notCommand_keepsTrusted {i : Instr} (hi : i.isCommand = false)
    (h : exec i s = .next t) : KeepsTrusted s t := by
  rcases notCommand_cases hi s with ⟨x, q, hx⟩ | ⟨f, -, hx⟩ <;> rw [hx] at h
  · unfold execStreamSample at h
    split at h <;> cases h
    · exact sampleStep_keepsTrusted s x q
    · exact .of_eq rfl
  · refine whenPortFree_keepsTrusted h fun hf => ?_
    cases hf
    exact receiveFrame_keepsTrusted s f

theorem reporting_keepsTrusted {i : Instr} (hi : onlyAnswers i = true)
    (h : exec i s = .next t) : KeepsTrusted s t := by
  obtain ⟨hframe, -⟩ := reportingCommandsChangeOnlyTheResponse i s t hi h
  exact .of_eq (by rw [hframe])

/-- Every instruction but SWEEP keeps the keys of Trusted. -/
theorem exec_keepsTrusted {i : Instr} (hi : ∀ h imm, i ≠ .sweep h imm)
    (hx : exec i s = .next t) : KeepsTrusted s t := by
  cases i with
  | sweep h imm => exact absurd rfl (hi h imm)
  | start | stop | settmo => exact runCommand_keepsTrusted hx (.of_eq rfl)
  | setlvl h rsv level =>
    rw [exec, execSetlvl] at hx
    split at hx
    · exact runCommand_keepsTrusted hx (.of_eq rfl)
    · cases hx
      exact .of_eq rfl
  | sample h rsv x q =>
    exact whenPortFree_keepsTrusted hx fun hrun =>
      runCommand_keepsTrusted hrun (sampleStep_keepsTrusted s x q)
  | inject h imm p =>
    exact whenPortFree_keepsTrusted hx fun hrun =>
      runCommand_keepsTrusted hrun (injectFrame_keepsTrusted s h.len p)
  | nop | mag | crc | syn | errbit | getdf | geticao | query | read | reserved =>
    exact reporting_keepsTrusted rfl hx
  | streamSample | df0 | df4 | df5 | df11 | df16 | df17 | df18 | df20 | df21 | df24 | dfInvalid =>
    exact notCommand_keepsTrusted rfl hx

theorem KeepsTrusted.not_lost {a : U24} {seen : U64} (h : KeepsTrusted s t)
    (hseen : KeyMap.find s.trusted a = some seen) : KeyMap.find t.trusted a ≠ none := by
  intro hgone
  have hhas := h a ((KeyMap.has_eq_true_iff _ _).mpr ⟨seen, hseen⟩)
  rw [(KeyMap.has_eq_false_iff _ _).mpr hgone] at hhas
  exact Bool.false_ne_true hhas

end KeepsTrusted

/-! ### A step that takes a key out of Trusted -/

/-- Only the operation code 0x06 decodes to SWEEP (R304). -/
theorem op_of_decodeCommand_sweep {c : Command} {h : Hdr} {imm : U32}
    (hc : decodeCommand c = .sweep h imm) : c.op = 0x06#8 := by
  unfold decodeCommand at hc
  split at hc
  case h_7 hop => exact BitVec.eq_of_toNat_eq hop
  all_goals cases hc

/-- A command that takes a key out of Trusted is a SWEEP that finds it stale. -/
theorem sweep_of_lost {c : Command} {s t : State} {a : U24} {seen : U64}
    (hx : exec (decodeCommand c) s = .next t) (hseen : KeyMap.find s.trusted a = some seen)
    (hgone : KeyMap.find t.trusted a = none) :
    c.op = 0x06#8 ∧ s.timeoutS.toNat * s.cfg.ticksPerSecond < s.now.toNat - seen.toNat := by
  by_cases hi : ∃ h imm, decodeCommand c = .sweep h imm
  · obtain ⟨h, imm, hc⟩ := hi
    refine ⟨op_of_decodeCommand_sweep hc, stale_of_swept hseen ?_⟩
    rw [hc, exec, execSweep] at hx
    rcases runCommand_cases _ _ _ s with ⟨-, hr⟩ | ⟨-, hf, -⟩ | ⟨-, -, hr⟩
    · cases hr.symm.trans hx
      exact absurd hgone (by simp [hseen])
    · exact absurd hf Bool.false_ne_true
    · cases hr.symm.trans hx
      exact hgone
  · simp only [not_exists] at hi
    exact absurd hgone ((exec_keepsTrusted hi hx).not_lost hseen)

/-- What a next state can come from: an empty schedule, a turn with nothing enabled, the consumer's
acceptance, or the step of an agent at the time input of its turn (R840, R841). -/
theorem step_next_cases {s t : State} (h : step s = .next t) :
    (s.sched = [] ∧ t = s) ∨
    ∃ u rest, s.sched = u :: rest ∧
      (t = { s with sched := rest } ∨
       (u.agent = .consumer ∧ t = acceptRecord { s with sched := rest }) ∨
       (s.now.toNat ≤ u.now.toNat ∧
        ((u.agent = .rst ∧ t = resetStep { s with sched := rest, now := u.now }) ∨
         (u.agent = .sweepTimer ∧ s.nextSweep.toNat ≤ u.now.toNat ∧
            t = timerStep { s with sched := rest, now := u.now }) ∨
         (u.agent = .sampleEngine ∧ streamReady s = true ∧ ∃ w more, s.producer = w :: more ∧
            exec (decodeStream w) { s with sched := rest, now := u.now, producer := more } =
              .next t) ∨
         (u.agent = .host ∧ ∃ c more, s.hostQ = c :: more ∧ commandWaits s c = false ∧
            exec (decodeCommand c) { s with sched := rest, now := u.now, hostQ := more } =
              .next t)))) := by
  unfold step at h
  split at h
  case isFalse => cases h
  case isTrue =>
    rcases nextMove_cases s with ⟨hs, hm⟩ | ⟨u, rest, hs, hm⟩
    · rw [hm] at h
      cases h
      exact .inl ⟨hs, rfl⟩
    · refine .inr ⟨u, rest, hs, ?_⟩
      rcases agentMove_cases { s with sched := rest } u with ha | ⟨hc, ha⟩ | ⟨-, -, ha⟩ |
        ⟨hnow, ⟨hr, ha⟩ | ⟨ht, hdue, ha⟩ | ⟨he, hready, w, more, hp, ha⟩ |
          ⟨hh, c, more, hq, hwait, ha⟩⟩ <;> rw [hm, ha] at h
      · cases h
        exact .inl rfl
      · cases h
        exact .inr (.inl ⟨hc, rfl⟩)
      · cases h
      · cases h
        exact .inr (.inr ⟨hnow, .inl ⟨hr, rfl⟩⟩)
      · cases h
        exact .inr (.inr ⟨hnow, .inr (.inl ⟨ht, hdue, rfl⟩)⟩)
      · exact .inr (.inr ⟨hnow, .inr (.inr (.inl ⟨he, hready, w, more, hp, h⟩))⟩)
      · exact .inr (.inr ⟨hnow, .inr (.inr (.inr ⟨hh, c, more, hq, hwait, h⟩))⟩)

/-- Settles O60. -/
theorem trustedKeyLeavesOnlyWhenStale : Obligations.TrustedKeyLeavesOnlyWhenStale := by
  unfold Obligations.TrustedKeyLeavesOnlyWhenStale
  intro s t a seen hx hseen hgone
  have hstay : ¬KeepsTrusted s t := fun h => h.not_lost hseen hgone
  rcases step_next_cases hx with ⟨-, rfl⟩ | ⟨u, rest, hsched, hturn⟩
  · exact absurd (.of_eq rfl) hstay
  · refine ⟨u, rest, hsched, ?_⟩
    rcases hturn with rfl | ⟨-, rfl⟩ | ⟨-, ⟨hrst, -⟩ | ⟨htimer, -, rfl⟩ |
      ⟨-, -, w, more, -, hexec⟩ | ⟨hhost, c, more, hq, -, hexec⟩⟩
    · exact absurd (.of_eq rfl) hstay
    · exact absurd (.of_eq rfl) hstay
    · exact .inl hrst
    · exact .inr ⟨.inl htimer,
        stale_of_swept (s := { s with sched := rest, now := u.now }) hseen hgone⟩
    · exact absurd (exec_keepsTrusted (by simp [decodeStream]) hexec) hstay
    · obtain ⟨hop, hstale⟩ := sweep_of_lost hexec hseen hgone
      exact .inr ⟨.inr ⟨hhost, c, more, hq, hop⟩, hstale⟩

end Sys2Proof.Machine
end

section
/-!
PROOFS of the sample pipeline family (47_sample_pipeline.md R700-R707): what a sample step makes of the
verdict on its window, the two ways a sample comes in, what waits while a record is held, and that an
instruction emits at most one record.
-/

namespace Sys2Proof.Machine

open Sys2Proof.Claims

/-! ### The sample step (R701) -/

section SampleStep

variable {s : State} {i q : Byte}

theorem sampleStep_of_noPreamble
    (hp : preamble (writeSample s i q).ring (writeSample s i q).cursor = false) :
    sampleStep s i q = (.noPreamble, writeSample s i q) := by
  rw [sampleStep_eq, if_neg (Bool.eq_false_iff.mp hp)]

/-- The slicer's registers are kept whatever the verdict (log 21). -/
theorem sliceWindow_of_slice {v : SliceVerdict} {regs : SliceRegs}
    (h : slice s.cfg s.ring s.cursor s.prevAvg = (v, regs)) :
    sliceWindow s = (v, { s with fbuf := regs.fbuf, prevAvg := regs.prevAvg }) := by
  rw [sliceWindow, h]

theorem sampleStep_of_abort {reason : FrameOutcome} {t : State}
    (hp : preamble (writeSample s i q).ring (writeSample s i q).cursor = true)
    (hw : sliceWindow (writeSample s i q) = (.abort reason, t)) : sampleStep s i q = (reason, t) := by
  rw [sampleStep_eq, if_pos hp, hw]

theorem sampleStep_of_frame {f : Frame} {t : State}
    (hp : preamble (writeSample s i q).ring (writeSample s i q).cursor = true)
    (hw : sliceWindow (writeSample s i q) = (.frame f, t)) : sampleStep s i q = validate t f := by
  rw [sampleStep_eq, if_pos hp, hw]

end SampleStep

/-- The three reasons of R605 and R606 are all that ends a slicing attempt without a frame. -/
theorem slice_abort_reason {cfg : Config} {ring : Vector Mag 240} {p : Fin 240} {prevAvg : U64}
    {reason : FrameOutcome} {regs : SliceRegs}
    (h : slice cfg ring p prevAvg = (.abort reason, regs)) :
    reason ∈ [.byte0Zero, .dfInvalid, .tailZero] := by
  rcases slice_cases cfg ring p prevAvg _ rfl _ rfl _ rfl with
    ⟨-, hs⟩ | ⟨-, -, hs⟩ | ⟨-, -, -, hs⟩ | ⟨-, -, -, hs⟩ <;> cases hs.symm.trans h
  · exact .head _
  · exact .tail _ (.head _)
  · exact .tail _ (.tail _ (.head _))

/-- Settles O26. That the registers of an attempt stay in fbuf and prev_avg is the model's (log 21). -/
theorem sampleStepChainsTheUnits : Obligations.SampleStepChainsTheUnits := by
  unfold Obligations.SampleStepChainsTheUnits
  intro s w i q hw
  obtain rfl : w = writeSample s i q := hw
  refine ⟨sampleStep_of_noPreamble, fun reason regs hp hslice => ?_, fun f regs hp hslice => ?_⟩
  · exact ⟨slice_abort_reason hslice, sampleStep_of_abort hp (sliceWindow_of_slice hslice)⟩
  · exact sampleStep_of_frame hp (sliceWindow_of_slice hslice)

/-! ### SAMPLE (R702) -/

theorem decode_sample {c : Command} (hop : c.op = 0x03#8) :
    decode (.command c) = .sample c.fields (c.imm.extractLsb' 16 16) (immI c.imm) (immQ c.imm) := by
  simp [decode, decodeCommand, hop]

/-- A command word of which imm[15:0] alone is used is legal if its header is the operation code and its
immediate word fits in 16 bits. -/
theorem badImm_imm16_eq_false_iff {c : Command} {k : Byte} (hop : c.op = k) :
    badImm c.fields 16 (c.imm.extractLsb' 16 16) = false ↔
      c.hdr = encodeHdr k ⟨0#20, 0#4⟩ ∧ c.imm.toNat < 2 ^ 16 := by
  rw [badImm_eq_false, legalImm, hdr_eq_encodeHdr_iff hop,
    ← extractHigh_eq_zero_iff (m := 16) (n := 16) c.imm]
  simp

theorem exec_sample_of_free {s : State} (hs : s.held = none) (h : Hdr) (rsv : BitVec 16) (i q : Byte) :
    exec (.sample h rsv i q) s = runCommand (badImm h 16 rsv) s.run
      (respond (sampleStep s i q).2 (sampleStep s i q).1.code) s :=
  whenPortFree_of_free hs _

/-- Settles O27: the checks of R753, in their order, around the sample step. -/
theorem sampleRunsOneSampleStep : Obligations.SampleRunsOneSampleStep := by
  unfold Obligations.SampleRunsOneSampleStep
  intro c s hop hs
  have hlegal : badImm c.fields 16 (c.imm.extractLsb' 16 16) = false ↔
      c.hdr = 0x03#32 ∧ c.imm.toNat < 2 ^ 16 := badImm_imm16_eq_false_iff hop
  refine ⟨_, _, _, decode_sample hop, fun h hr => ⟨immI_toNat h.2, immQ_toNat c.imm, ?_⟩,
    fun h hr => ?_, fun h => ?_⟩ <;> rw [exec_sample_of_free hs]
  · rw [hlegal.mpr h, hr, runCommand_legal]
    rfl
  · rw [hlegal.mpr h, hr, runCommand_misused]
    rfl
  · rw [← hlegal, Bool.not_eq_false] at h
    rw [h, runCommand_bad]
    rfl

/-! ### The stream port (R700) -/

theorem streamReady_eq_false_iff (s : State) :
    streamReady s = false ↔ s.run = false ∨ s.held ≠ none := by
  rw [streamReady, Bool.and_eq_false_iff, Option.isNone_eq_false_iff, Option.isSome_iff_ne_none]

theorem execStreamSample_of_not_ready {s : State} (h : s.run = false ∨ s.held ≠ none) (i q : Byte) :
    execStreamSample i q s = .next s :=
  if_neg (by simp [(streamReady_eq_false_iff s).mpr h])

/-- R131: the response registers are the commands'. -/
theorem sampleStep_response (s : State) (i q : Byte) :
    (sampleStep s i q).2.res = s.res ∧ (sampleStep s i q).2.cerr = s.cerr := by
  obtain ⟨hframe, -⟩ := sampleStepFrame s (sampleStep s i q).2 i q (sampleStep s i q).1 rfl
  rw [hframe]
  exact ⟨rfl, rfl⟩

/-- Settles O28. -/
theorem streamTransferIsOneSampleStep : Obligations.StreamTransferIsOneSampleStep := by
  unfold Obligations.StreamTransferIsOneSampleStep
  intro w s
  refine ⟨_, _, rfl, ?_, ?_, fun hrun hs => ⟨execStreamSample_of_ready hrun hs _ _,
    sampleStep_response s _ _⟩, fun h => execStreamSample_of_not_ready h _ _⟩
  · rw [BitVec.extractLsb'_toNat, Nat.shiftRight_eq_div_pow]
    omega
  · rw [BitVec.extractLsb'_toNat, Nat.shiftRight_zero]

/-! ### Turns with no enabled step (R703) -/

theorem engineMove_still {s : State} (h : s.producer = [] ∨ s.run = false ∨ s.held ≠ none)
    (now : U64) : engineMove s now = .still s := by
  rw [engineMove]
  split
  case h_1 => rfl
  case h_2 w more hp =>
    have hready := (streamReady_eq_false_iff s).mpr (h.resolve_left (by simp [hp]))
    exact if_neg (by simp [hready])

theorem hostMove_of_empty {s : State} (h : s.hostQ = []) (now : U64) : hostMove s now = .still s := by
  rw [hostMove, h]

/-- Settles O43. -/
theorem disabledTurnChangesNothing : Obligations.DisabledTurnChangesNothing := by
  unfold Obligations.DisabledTurnChangesNothing
  intro s hw
  refine ⟨fun hnone => step_of_still hw (by rw [nextMove, hnone]), fun now rest =>
    ⟨fun hs hidle => ?_, fun hs hearly => ?_, fun hs hempty => ?_⟩⟩ <;>
    refine step_of_still hw ((nextMove_of_sched hs).trans ?_)
  · exact engineMove_still (s := { s with sched := rest }) hidle now
  · exact timerMove_early (s := { s with sched := rest }) hearly
  · exact hostMove_of_empty (s := { s with sched := rest }) hempty now

/-! ### What waits for the output port (R707) -/

/-- The two commands that wait are told by their operation codes (R304, log 7). -/
theorem usesOutputPort_decodeCommand (c : Command) :
    usesOutputPort (decodeCommand c) = (c.op == 0x03#8 || c.op == 0x0D#8) := by
  have hcode (k : Byte) : (c.op == k) = decide (c.op.toNat = k.toNat) :=
    decide_eq_decide.mpr BitVec.toNat_inj.symm
  rw [hcode, hcode]
  unfold decodeCommand
  split
  case h_17 => simp_all [usesOutputPort]
  all_goals simp [usesOutputPort, *]

theorem hostMove_of_waits {s : State} {c : Command} {more : List Command} (hq : s.hostQ = c :: more)
    (hs : s.held ≠ none) (hc : usesOutputPort (decodeCommand c) = true) (now : U64) :
    hostMove s now = .still s := by
  have hwait : commandWaits s c = true := by
    rw [commandWaits, ← usesOutputPort_decodeCommand, hc, Option.isSome_iff_ne_none.mpr hs]
    rfl
  rw [hostMove, hq]
  exact if_pos hwait

theorem whenPortFree_of_taken {s : State} (hs : s.held ≠ none)
    (x : Host.Outcome State Fault Refusal) : whenPortFree s x = .next s :=
  if_pos (Option.isSome_iff_ne_none.mpr hs)

/-- While a record is held nothing of the sample path is taken: a command waits, and the port of what is
no command is not ready (R700, R707). -/
theorem exec_of_held {i : Instr} {s : State} (hs : s.held ≠ none)
    (hi : usesOutputPort i = true ∨ i.isCommand = false) : exec i s = .next s := by
  rcases hi with hi | hi
  · exact exec_of_port_taken hi hs
  · rcases notCommand_cases hi s with ⟨x, q, hx⟩ | ⟨f, -, hx⟩ <;> rw [hx]
    · exact execStreamSample_of_not_ready (.inr hs) x q
    · exact whenPortFree_of_taken hs _

/-- Settles O44. -/
theorem heldRecordStallsTheSamplePath : Obligations.HeldRecordStallsTheSamplePath := by
  unfold Obligations.HeldRecordStallsTheSamplePath
  refine ⟨fun i s => exec_of_held, fun s now rest c more hw hs hsched hq hc => ?_,
    fun s now rest hw hsched => step_of_acts hw (nextMove_of_sched hsched)⟩
  exact step_of_still hw ((nextMove_of_sched hsched).trans
    (hostMove_of_waits (s := { s with sched := rest }) hq hs hc now))

/-! ### Emission (R706, R810) -/

theorem runCommand_keepsPort {bad misused : Bool} {effect s t : State}
    (h : runCommand bad misused effect s = .next t)
    (heffect : effect.out = s.out ∧ effect.held = s.held) : t.out = s.out ∧ t.held = s.held := by
  rcases runCommand_cases bad misused effect s with ⟨-, hx⟩ | ⟨-, -, hx⟩ | ⟨-, -, hx⟩ <;>
    cases hx.symm.trans h
  · exact ⟨rfl, rfl⟩
  · exact ⟨rfl, rfl⟩
  · exact heffect

/-- A command other than SAMPLE and INJECT does not touch the output. -/
theorem exec_keepsPort {i : Instr} {s t : State} (hi : i.isCommand = true)
    (hport : usesOutputPort i = false) (hx : exec i s = .next t) :
    t.out = s.out ∧ t.held = s.held := by
  cases i with
  | start | stop | settmo | sweep => exact runCommand_keepsPort hx ⟨rfl, rfl⟩
  | setlvl h rsv level =>
    rw [exec, execSetlvl] at hx
    split at hx
    · exact runCommand_keepsPort hx ⟨rfl, rfl⟩
    · cases hx
      exact ⟨rfl, rfl⟩
  | nop | mag | crc | syn | errbit | getdf | geticao | query | read | reserved =>
    obtain ⟨hframe, -⟩ := reportingCommandsChangeOnlyTheResponse _ s t rfl hx
    rw [hframe]
    exact ⟨rfl, rfl⟩
  | sample | inject => exact absurd hport.symm Bool.false_ne_true
  | _ => exact absurd hi Bool.false_ne_true

/-- What changes a free port has put one record there, and appended it to the output. -/
theorem PortChange.of_free {out out' : List OutRecord} {held' : Option OutRecord}
    (h : PortChange out none out' held') :
    (out' = out ∧ held' = none) ∨ ∃ r, out' = out ++ [r] ∧ held' = some r := by
  cases h with
  | same | accepted => exact .inl ⟨rfl, rfl⟩
  | emitted r _ => exact .inr ⟨r, rfl, rfl⟩

/-- Settles O53: what does not use the output port keeps it, what uses it waits while a record is held,
and into a free port one record goes at most. -/
theorem outputGrowsByAtMostOneRecord : Obligations.OutputGrowsByAtMostOneRecord := by
  unfold Obligations.OutputGrowsByAtMostOneRecord
  intro i s t hx
  by_cases hi : usesOutputPort i = true ∨ i.isCommand = false
  · by_cases hs : s.held = none
    · have hport := (exec_effect hx).port
      rw [hs] at hport ⊢
      exact hport.of_free.imp_right fun hr => ⟨rfl, hi, hr⟩
    · cases (exec_of_held hs hi).symm.trans hx
      exact .inl ⟨rfl, rfl⟩
  · obtain ⟨hport, hcommand⟩ := not_or.mp hi
    exact .inl (exec_keepsPort (Bool.eq_true_of_not_eq_false hcommand)
      (Bool.eq_false_of_not_eq_true hport) hx)

end Sys2Proof.Machine
end

section
/-!
PROOFS of the exceptions family (60_exceptions.md R801, R803, R840, R841): an illegal command is refused,
the step of a turn runs the instruction of the transfer it takes, and where no threshold is 0 a lower time
input is all that keeps a step from a next state.
-/

namespace Sys2Proof.Machine

open Sys2Proof.Claims

/-! ### Refused commands (R803) -/

theorem isCommand_decodeCommand (c : Command) : (decodeCommand c).isCommand = true := by
  unfold decodeCommand
  split <;> rfl

/-- A taken command that is not legal has the first of the three ends of R802. -/
theorem exec_of_illegal {i : Instr} {s : State} (hi : i.isCommand = true) (hl : i.legal = false)
    (hport : s.held = none ∨ usesOutputPort i = false) : exec i s = .next (raiseIllegal s) := by
  rcases command_cases hi hport with ⟨-, h⟩ | ⟨hlegal, -⟩ | ⟨hlegal, -⟩
  · exact h
  · exact absurd (hl.symm.trans hlegal) Bool.false_ne_true
  · exact absurd (hl.symm.trans hlegal) Bool.false_ne_true

/-- Settles O39. -/
theorem illegalCommandIsRefused : Obligations.IllegalCommandIsRefused := by
  unfold Obligations.IllegalCommandIsRefused
  intro c s hl hport
  exact exec_of_illegal (isCommand_decodeCommand c) hl hport

/-! ### The moves of an agent with an enabled step (R840) -/

section Moves

variable {s : State} (now : U64)

theorem commandWaits_eq_false_iff {c : Command} :
    commandWaits s c = false ↔ s.held = none ∨ usesOutputPort (decode (.command c)) = false := by
  rw [decode, usesOutputPort_decodeCommand, commandWaits, Bool.and_eq_false_iff,
    Option.isSome_eq_false_iff, Option.isNone_iff_eq_none]

theorem hostMove_of_taken {c : Command} {more : List Command} (hq : s.hostQ = c :: more)
    (hc : s.held = none ∨ usesOutputPort (decode (.command c)) = false) :
    hostMove s now =
      atTime s now (.runs (decode (.command c)) { s with now := now, hostQ := more }) := by
  rw [hostMove, hq]
  exact if_neg (Bool.eq_false_iff.mp (commandWaits_eq_false_iff.mpr hc))

theorem engineMove_of_ready {w : BitVec 16} {more : List (BitVec 16)} (hp : s.producer = w :: more)
    (hrun : s.run = true) (hs : s.held = none) :
    engineMove s now =
      atTime s now (.runs (decode (.stream w)) { s with now := now, producer := more }) := by
  rw [engineMove, hp]
  exact if_pos (by simp [streamReady, hrun, hs])

end Moves

theorem step_of_runs {s t : State} {i : Instr} (hw : s.cfg.wf = true) (h : nextMove s = .runs i t) :
    step s = exec i t := by
  simp [step, hw, h]

theorem step_of_stuck {s : State} {r : Fault} (hw : s.cfg.wf = true) (h : nextMove s = .stuck r) :
    step s = .fault r := by
  simp [step, hw, h]

/-- Settles O42. -/
theorem stepRunsTheDecodedInstruction : Obligations.StepRunsTheDecodedInstruction := by
  unfold Obligations.StepRunsTheDecodedInstruction
  refine ⟨fun s now rest c more hw hsched hq hnow hc => ?_,
    fun s now rest w more hw hsched hp hnow hrun hs => ?_⟩
  · have hmove : nextMove s = hostMove { s with sched := rest } now := nextMove_of_sched hsched
    have htaken := hostMove_of_taken (s := { s with sched := rest }) now hq hc
    exact step_of_runs hw (hmove.trans (htaken.trans (atTime_of_le _ _ _ hnow)))
  · have hmove : nextMove s = engineMove { s with sched := rest } now := nextMove_of_sched hsched
    have htaken := engineMove_of_ready (s := { s with sched := rest }) now hp hrun hs
    exact step_of_runs hw (hmove.trans (htaken.trans (atTime_of_le _ _ _ hnow)))

/-- Settles O45: each of these turns is a move that is judged by its time. -/
theorem lowerTimeHasNoMove : Obligations.LowerTimeHasNoMove := by
  unfold Obligations.LowerTimeHasNoMove
  rintro s ⟨agent, now⟩ rest hw hsched hlow henabled
  suffices hmove : ∃ m, agentMove { s with sched := rest } ⟨agent, now⟩ =
      atTime { s with sched := rest } now m by
    obtain ⟨m, hm⟩ := hmove
    exact step_of_stuck hw
      ((nextMove_of_sched hsched).trans (hm.trans (atTime_of_lt _ _ _ hlow)))
  rcases henabled with rfl | ⟨rfl, hdue⟩ | ⟨rfl, hrun, hs, hp⟩ | ⟨rfl, c, more, hq, hc⟩
  · exact ⟨_, rfl⟩
  · exact ⟨_, if_pos hdue⟩
  · obtain ⟨w, more, hp⟩ := List.exists_cons_of_ne_nil hp
    exact ⟨_, engineMove_of_ready now hp hrun hs⟩
  · exact ⟨_, hostMove_of_taken now hq hc⟩

/-! ### Every instruction and every turn in time has a next state (R801, R224) -/

theorem exec_total (i : Instr) (s : State) : ∃ t, exec i s = .next t := by
  cases hi : i.isCommand with
  | true =>
    by_cases hport : s.held = none ∨ usesOutputPort i = false
    · rcases command_cases hi hport with ⟨-, h⟩ | ⟨-, -, -, h⟩ | ⟨-, -, u, v, h, -⟩
      · exact ⟨_, h⟩
      · exact ⟨_, h⟩
      · exact ⟨_, h⟩
    · obtain ⟨hs, huse⟩ := not_or.mp hport
      exact ⟨s, exec_of_port_taken (Bool.eq_true_of_not_eq_false huse) hs⟩
  | false =>
    rcases notCommand_cases hi s with ⟨x, q, h⟩ | ⟨f, -, h⟩ <;> rw [h]
    · unfold execStreamSample
      split
      · exact ⟨_, rfl⟩
      · exact ⟨_, rfl⟩
    · rcases whenPortFree_cases s (.next (receiveFrame s f).2) with ⟨-, -, hw⟩ | ⟨-, hw⟩
      · exact ⟨_, hw⟩
      · exact ⟨_, hw⟩

/-- The time input is all that an agent's turn can get stuck on. -/
theorem lower_of_agentMove_stuck {s : State} {u : Turn} {r : Fault}
    (h : agentMove s u = .stuck r) : u.now.toNat < s.now.toNat := by
  rcases agentMove_cases s u with hm | ⟨-, hm⟩ | ⟨-, hlow, -⟩ | ⟨-, ⟨-, hm⟩ | ⟨-, -, hm⟩ |
    ⟨-, -, w, more, -, hm⟩ | ⟨-, c, more, -, -, hm⟩⟩
  case inr.inr.inl => exact hlow
  all_goals cases hm.symm.trans h

theorem lower_of_nextMove_stuck {s : State} {r : Fault} (h : nextMove s = .stuck r) :
    ∃ u rest, s.sched = u :: rest ∧ u.now.toNat < s.now.toNat := by
  rcases nextMove_cases s with ⟨-, hm⟩ | ⟨u, rest, hsched, hm⟩
  · cases hm.symm.trans h
  · exact ⟨u, rest, hsched,
      lower_of_agentMove_stuck (s := { s with sched := rest }) (hm.symm.trans h)⟩

/-- Settles O49. -/
theorem everyInstructionCompletes : Obligations.EveryInstructionCompletes := by
  unfold Obligations.EveryInstructionCompletes
  refine ⟨exec_total, fun s hw htime => ?_⟩
  rcases step_cases s hw with ⟨t, -, h⟩ | ⟨t, -, h⟩ | ⟨i, t, -, h⟩ | ⟨r, hm, -⟩
  · exact ⟨t, h⟩
  · exact ⟨t, h⟩
  · obtain ⟨t', ht'⟩ := exec_total i t
    exact ⟨t', h.trans ht'⟩
  · obtain ⟨u, rest, hsched, hlow⟩ := lower_of_nextMove_stuck hm
    exact absurd (htime u rest hsched) (Nat.not_le.mpr hlow)

end Sys2Proof.Machine
end

section
/-!
PROOFS of the control family (48_control.md R750-R758): what NOP, START, STOP, SETLVL, SETTMO and READ
answer. The legality of a word is stated once, as what its header and its immediate word may be.
-/

namespace Sys2Proof.Machine

open Sys2Proof.Claims

/-! ### Commands without an immediate field: NOP, START, STOP (R750-R752) -/

theorem decode_nop {c : Command} (hop : c.op = 0x00#8) :
    decode (.command c) = .nop c.fields c.imm := by
  simp [decode, decodeCommand, hop]

theorem decode_start {c : Command} (hop : c.op = 0x01#8) :
    decode (.command c) = .start c.fields c.imm := by
  simp [decode, decodeCommand, hop]

theorem decode_stop {c : Command} (hop : c.op = 0x02#8) :
    decode (.command c) = .stop c.fields c.imm := by
  simp [decode, decodeCommand, hop]

/-- The checks of R753 in their order, with the legality of the word as a proposition. -/
theorem runCommand_ends {bad : Bool} {legal : Prop} (hbad : bad = false ↔ legal) (misused : Bool)
    (effect s : State) :
    (legal → misused = false → runCommand bad misused effect s = .next effect) ∧
    (legal → misused = true → runCommand bad misused effect s = .next (refusedMisuse s)) ∧
    (¬legal → runCommand bad misused effect s = .next (refusedIllegal s)) := by
  rw [← hbad, Bool.not_eq_false]
  rcases runCommand_cases bad misused effect s with ⟨hb, h⟩ | ⟨hb, hm, h⟩ | ⟨hb, hm, h⟩ <;>
    rw [h, hb]
  · exact ⟨fun h => absurd h.symm Bool.false_ne_true, fun h => absurd h.symm Bool.false_ne_true,
      fun _ => rfl⟩
  · rw [hm]
    exact ⟨fun _ h => absurd h.symm Bool.false_ne_true, fun _ _ => rfl,
      fun h => absurd h Bool.false_ne_true⟩
  · rw [hm]
    exact ⟨fun _ _ => rfl, fun _ h => absurd h Bool.false_ne_true,
      fun h => absurd h Bool.false_ne_true⟩

/-- Settles O1. -/
theorem nopAnswersZero : Obligations.NopAnswersZero := by
  unfold Obligations.NopAnswersZero
  intro c s hop
  exact ⟨decode_nop hop, runCommand_answer (badPlain_fields_eq_false_iff hop) s 0#32⟩

/-- Settles O2. -/
theorem startOpensTheStreamPort : Obligations.StartOpensTheStreamPort := by
  unfold Obligations.StartOpensTheStreamPort
  intro c s hop
  obtain ⟨hstart, hmisuse, hrefuse⟩ := runCommand_ends (badPlain_fields_eq_false_iff hop) s.run
    (respond { s with run := true } 0#32) s
  exact ⟨decode_start hop, fun ⟨hhdr, himm, hrun⟩ => hstart ⟨hhdr, himm⟩ hrun,
    fun ⟨hhdr, himm, hrun⟩ => hmisuse ⟨hhdr, himm⟩ hrun, hrefuse⟩

/-- Settles O3. -/
theorem stopClosesTheStreamPort : Obligations.StopClosesTheStreamPort := by
  unfold Obligations.StopClosesTheStreamPort
  intro c s hop
  obtain ⟨hstop, -, hrefuse⟩ := runCommand_ends (badPlain_fields_eq_false_iff hop) false
    (respond { s with run := false } 0#32) s
  exact ⟨decode_stop hop, fun hlegal => hstop hlegal rfl, hrefuse⟩

/-! ### SETTMO (R755) -/

theorem decode_settmo {c : Command} (hop : c.op = 0x05#8) :
    decode (.command c) = .settmo c.fields (c.imm.extractLsb' 24 8) (c.imm.extractLsb' 0 24) := by
  simp [decode, decodeCommand, hop]

/-- Settles O5. -/
theorem settmoWritesTheTimeout : Obligations.SettmoWritesTheTimeout := by
  unfold Obligations.SettmoWritesTheTimeout
  intro c s hop
  obtain ⟨hset, -, hrefuse⟩ := runCommand_ends (badImm_imm24_eq_false_iff hop) false
    (respond { s with timeoutS := c.imm.extractLsb' 0 24 } 0#32) s
  exact ⟨_, _, decode_settmo hop, fun hlegal => hset hlegal rfl, hrefuse⟩

/-! ### SETLVL (R754) -/

theorem decode_setlvl {c : Command} (hop : c.op = 0x04#8) :
    decode (.command c) = .setlvl c.fields (c.imm.extractLsb' 2 30) (c.imm.extractLsb' 0 2) := by
  simp [decode, decodeCommand, hop]

/-- The code in the low bits is 0, 1 or 2, and there is nothing above it. -/
theorem setlvl_legal_iff {c : Command} (hop : c.op = 0x04#8) :
    (Instr.setlvl c.fields (c.imm.extractLsb' 2 30) (c.imm.extractLsb' 0 2)).legal = true ↔
      c.hdr = 0x04#32 ∧ c.imm.toNat ≤ 2 := by
  have hhdr : c.hdr = 0x04#32 ↔ c.fields.rsv = 0#20 ∧ c.fields.len = 0#4 :=
    hdr_eq_encodeHdr_iff hop
  have himm := extractHigh_eq_zero_iff (m := 30) (n := 2) c.imm
  have hcode : c.imm.extractLsb' 0 2 = 3#2 ↔ c.imm.toNat % 4 = 3 := by
    rw [← BitVec.toNat_inj, BitVec.extractLsb'_toNat, Nat.shiftRight_zero]
    rfl
  simp only [Instr.legal, legalImm, Bool.and_eq_true, beq_iff_eq, bne_iff_ne, ne_eq, hhdr,
    himm, hcode, and_assoc (a := _ ∧ _)]
  exact and_congr_right fun _ => by omega

theorem levelOfCode_code (l : Level) : levelOfCode l.code = some l := by
  cases l <;> rfl

theorem exec_setlvl_of_level {s : State} {h : Hdr} {rsv : BitVec 30} {code : BitVec 2} {l : Level}
    (hl : levelOfCode code = some l) (hlegal : (Instr.setlvl h rsv code).legal = true) :
    exec (.setlvl h rsv code) s = .next { s with level := l, res := 0#32, cerr := .ok } := by
  obtain ⟨himm, -⟩ := (Bool.and_eq_true _ _).mp hlegal
  have hbad : badImm h 30 rsv = false := (badImm_eq_false h 30 rsv).mpr himm
  rw [exec, execSetlvl, hl, hbad]
  rfl

/-- Settles O4. -/
theorem setlvlWritesTheLevel : Obligations.SetlvlWritesTheLevel := by
  unfold Obligations.SetlvlWritesTheLevel
  intro c s hop
  refine ⟨_, _, decode_setlvl hop, fun l ⟨hhdr, himm⟩ => ?_, fun h => ?_⟩
  · have hcode : c.imm.extractLsb' 0 2 = l.code := by
      rw [himm]
      cases l <;> rfl
    have hle : c.imm.toNat ≤ 2 := by
      rw [himm]
      cases l <;> decide
    exact exec_setlvl_of_level (hcode ▸ levelOfCode_code l) ((setlvl_legal_iff hop).mpr ⟨hhdr, hle⟩)
  · rw [← setlvl_legal_iff hop, Bool.not_eq_true] at h
    exact exec_of_illegal rfl h (.inr rfl)

/-! ### READ (R758) -/

theorem decode_read {c : Command} (hop : c.op = 0x0F#8) :
    decode (.command c) = .read c.fields (c.imm.extractLsb' 8 24) (c.imm.extractLsb' 0 8) := by
  simp [decode, decodeCommand, hop]

theorem read_legal_iff {c : Command} (hop : c.op = 0x0F#8) :
    (Instr.read c.fields (c.imm.extractLsb' 8 24) (c.imm.extractLsb' 0 8)).legal = true ↔
      c.hdr = 0x0F#32 ∧ c.imm.toNat ≤ 5 := by
  have hhdr : c.hdr = 0x0F#32 ↔ c.fields.rsv = 0#20 ∧ c.fields.len = 0#4 :=
    hdr_eq_encodeHdr_iff hop
  have himm := extractHigh_eq_zero_iff (m := 24) (n := 8) c.imm
  have hindex : (c.imm.extractLsb' 0 8).toNat = c.imm.toNat % 256 := immQ_toNat c.imm
  simp only [Instr.legal, legalImm, Bool.and_eq_true, beq_iff_eq, decide_eq_true_eq, hhdr, himm,
    hindex, and_assoc (a := _ ∧ _)]
  exact and_congr_right fun _ => by omega

/-- The bits of READ 0 do not overlap, so the words that are or-ed are added. -/
theorem statusWord_eq (s : State) :
    statusWord s = BitVec.ofNat 32 (16 * levelNumber s.level + 8 * bitNumber s.ovf
      + 4 * bitNumber s.illegal + 2 * bitNumber s.misuse + bitNumber s.run) := by
  unfold statusWord
  generalize s.level = l, s.ovf = ovf, s.illegal = illegal, s.misuse = misuse, s.run = run
  cases l <;> decide +revert

theorem exec_read_of_word {s : State} {h : Hdr} {rsv : BitVec 24} {index : Byte} {v : U32}
    (hv : readWord s index = some v) (hlegal : (Instr.read h rsv index).legal = true) :
    exec (.read h rsv index) s = .next (answered s v) := by
  obtain ⟨himm, -⟩ := (Bool.and_eq_true _ _).mp hlegal
  have hbad : badImm h 24 rsv = false := (badImm_eq_false h 24 rsv).mpr himm
  rw [exec, execRead, hv, hbad]
  rfl

/-- READ `k`, with the word that R758 gives the index. -/
theorem exec_read_of_imm {c : Command} {s : State} {k : Nat} {v : U32} (hop : c.op = 0x0F#8)
    (hhdr : c.hdr = 0x0F#32) (himm : c.imm = BitVec.ofNat 32 k) (hk : k ≤ 5)
    (hv : readWord s ((BitVec.ofNat 32 k).extractLsb' 0 8) = some v) :
    exec (.read c.fields (c.imm.extractLsb' 8 24) (c.imm.extractLsb' 0 8)) s =
      .next (answered s v) := by
  have hle : c.imm.toNat ≤ 5 := by
    rw [himm, BitVec.toNat_ofNat]
    exact (Nat.mod_le _ _).trans hk
  exact exec_read_of_word (himm ▸ hv) ((read_legal_iff hop).mpr ⟨hhdr, hle⟩)

/-- Settles O6: each index with its word, and the rest by the legality of the word that was sent. -/
theorem readReportsTheIndexedWord : Obligations.ReadReportsTheIndexedWord := by
  unfold Obligations.ReadReportsTheIndexedWord
  intro c s hop
  have hthreshold {l : Level} (hl : s.level = l) :
      some (threshold s.cfg s.level) = some (threshold s.cfg l) := by rw [hl]
  have htimeout : some (s.timeoutS.setWidth 32) = some (BitVec.ofNat 32 s.timeoutS.toNat) := by
    rw [BitVec.ofNat_toNat]
  refine ⟨_, _, decode_read hop, ?_, ?_, ?_, ?_, ?_, ?_, ?_, ?_, fun h => ?_⟩
  · rintro ⟨hhdr, himm⟩
    exact exec_read_of_imm hop hhdr himm (by decide) (congrArg some (statusWord_eq s))
  · rintro ⟨hhdr, himm⟩
    exact exec_read_of_imm hop hhdr himm (by decide) htimeout
  · rintro ⟨hhdr, himm, hl⟩
    exact exec_read_of_imm hop hhdr himm (by decide) (hthreshold hl)
  · rintro ⟨hhdr, himm, hl⟩
    exact exec_read_of_imm hop hhdr himm (by decide) (hthreshold hl)
  · rintro ⟨hhdr, himm, hl⟩
    exact exec_read_of_imm hop hhdr himm (by decide) (hthreshold hl)
  · rintro ⟨hhdr, himm⟩
    exact exec_read_of_imm hop hhdr himm (by decide) rfl
  · rintro ⟨hhdr, himm⟩
    exact exec_read_of_imm hop hhdr himm (by decide) rfl
  · rintro ⟨hhdr, himm⟩
    exact exec_read_of_imm hop hhdr himm (by decide) rfl
  · rw [← read_legal_iff hop, Bool.not_eq_true] at h
    exact exec_of_illegal rfl h (.inr rfl)

end Sys2Proof.Machine
end

section
/-!
PROOFS of the control family, the registers (R756, R757): each command but SAMPLE writes its own registers
and no others, and no step but reset's clears a bit of STATUS.
-/

namespace Sys2Proof.Machine

open Sys2Proof.Claims

/-! ### The registers of a command (R757) -/

/-- What `i`, a command other than SAMPLE, may do on its way from `s` to `t`: each register it writes has
`i` among its writers. -/
structure WritesOnlyIts (i : Instr) (s t : State) : Prop where
  frame : t = { s with
    trusted := t.trusted, candidate := t.candidate, run := t.run, level := t.level
    timeoutS := t.timeoutS, misuse := t.misuse, illegal := t.illegal, ovf := t.ovf
    res := t.res, cerr := t.cerr, out := t.out, held := t.held }
  mapsAndOutput : (∀ h imm p, i ≠ .inject h imm p) →
    t.ovf = s.ovf ∧ t.out = s.out ∧ t.held = s.held ∧
    ((∀ h imm, i ≠ .sweep h imm) → t.trusted = s.trusted ∧ t.candidate = s.candidate)
  run : (∀ h imm, i ≠ .start h imm) → (∀ h imm, i ≠ .stop h imm) → t.run = s.run
  level : (∀ h rsv level, i ≠ .setlvl h rsv level) → t.level = s.level
  timeoutS : (∀ h rsv seconds, i ≠ .settmo h rsv seconds) → t.timeoutS = s.timeoutS
  misuse : canBeMisused i = false → t.misuse = s.misuse

section WritesOnlyIts

variable {i : Instr} {s t u : State}

theorem WritesOnlyIts.refl (i : Instr) (s : State) : WritesOnlyIts i s s :=
  ⟨rfl, fun _ => ⟨rfl, rfl, rfl, fun _ => ⟨rfl, rfl⟩⟩, fun _ _ => rfl, fun _ => rfl, fun _ => rfl,
    fun _ => rfl⟩

/-- The response and STATUS.ILLEGAL are open to every command. -/
theorem WritesOnlyIts.answer (h : WritesOnlyIts i s u) (illegal : Bool) (res : U32) (cerr : CErr) :
    WritesOnlyIts i s { u with illegal := illegal, res := res, cerr := cerr } :=
  ⟨congrArg (fun x : State => { x with illegal := illegal, res := res, cerr := cerr }) h.frame,
    h.mapsAndOutput, h.run, h.level, h.timeoutS, h.misuse⟩

theorem raiseMisuse_writesOnlyIts (hi : canBeMisused i = true) (s : State) :
    WritesOnlyIts i s (raiseMisuse s) :=
  ⟨rfl, fun _ => ⟨rfl, rfl, rfl, fun _ => ⟨rfl, rfl⟩⟩, fun _ _ => rfl, fun _ => rfl, fun _ => rfl,
    fun h => absurd (h.symm.trans hi) Bool.false_ne_true⟩

/-- The errors of R753 write no register but their own, so it is enough to look at the effect. -/
theorem runCommand_writesOnlyIts {bad : Bool} {v : U32}
    (hx : runCommand bad (canBeMisused i && s.run) (respond u v) s = .next t)
    (hu : WritesOnlyIts i s u) : WritesOnlyIts i s t := by
  rcases runCommand_cases bad (canBeMisused i && s.run) (respond u v) s with
    ⟨-, h⟩ | ⟨-, hm, h⟩ | ⟨-, -, h⟩ <;> cases h.symm.trans hx
  · exact (WritesOnlyIts.refl i s).answer true 0#32 .illegal
  · exact raiseMisuse_writesOnlyIts ((Bool.and_eq_true _ _).mp hm).1 s
  · exact hu.answer u.illegal v .ok

theorem reporting_writesOnlyIts (hi : onlyAnswers i = true) (hx : exec i s = .next t) :
    WritesOnlyIts i s t := by
  obtain ⟨hframe, -⟩ := reportingCommandsChangeOnlyTheResponse i s t hi hx
  rw [hframe]
  exact (WritesOnlyIts.refl i s).answer t.illegal t.res t.cerr

/-- INJECT writes what its frame writes, the response and the two error bits (R206, R660). -/
theorem inject_writesOnlyIts {h : Hdr} {imm : U32} {p : Payload}
    (hx : exec (.inject h imm p) s = .next t) : WritesOnlyIts (.inject h imm p) s t := by
  obtain ⟨hframe, -⟩ := frameTouchesOneKey.2 h imm p s t hx
  rw [hframe]
  exact ⟨rfl, fun hne => absurd rfl (hne h imm p), fun _ _ => rfl, fun _ => rfl, fun _ => rfl,
    fun hm => absurd hm.symm Bool.false_ne_true⟩

theorem setlvl_writesOnlyIts {h : Hdr} {rsv : BitVec 30} {level : BitVec 2}
    (hx : exec (.setlvl h rsv level) s = .next t) :
    WritesOnlyIts (.setlvl h rsv level) s t := by
  rw [exec, execSetlvl] at hx
  split at hx
  · exact runCommand_writesOnlyIts hx { WritesOnlyIts.refl _ s with
      frame := rfl, level := fun hne => absurd rfl (hne _ _ _) }
  · cases hx
    exact (WritesOnlyIts.refl _ s).answer true 0#32 .illegal

theorem exec_writesOnlyIts (hi : i.isCommand = true)
    (hsample : ∀ h rsv x q, i ≠ .sample h rsv x q) (hx : exec i s = .next t) : WritesOnlyIts i s t := by
  cases i with
  | sample h rsv x q => exact absurd rfl (hsample h rsv x q)
  | start h imm =>
    exact runCommand_writesOnlyIts hx { WritesOnlyIts.refl _ s with
      frame := rfl, run := fun hne _ => absurd rfl (hne _ _) }
  | stop h imm =>
    exact runCommand_writesOnlyIts hx { WritesOnlyIts.refl _ s with
      frame := rfl, run := fun _ hne => absurd rfl (hne _ _) }
  | settmo h rsv seconds =>
    exact runCommand_writesOnlyIts hx { WritesOnlyIts.refl _ s with
      frame := rfl, timeoutS := fun hne => absurd rfl (hne _ _ _) }
  | sweep h imm =>
    exact runCommand_writesOnlyIts hx { WritesOnlyIts.refl _ s with
      frame := rfl
      mapsAndOutput := fun _ => ⟨rfl, rfl, rfl, fun hne => absurd rfl (hne _ _)⟩ }
  | setlvl h rsv level => exact setlvl_writesOnlyIts hx
  | inject h imm p => exact inject_writesOnlyIts hx
  | nop | mag | crc | syn | errbit | getdf | geticao | query | read | reserved =>
    exact reporting_writesOnlyIts rfl hx
  | _ => exact absurd hi Bool.false_ne_true

end WritesOnlyIts

/-- Settles O51. -/
theorem commandsWriteOnlyTheirRegisters : Obligations.CommandsWriteOnlyTheirRegisters := by
  unfold Obligations.CommandsWriteOnlyTheirRegisters
  intro i s t hi hsample hx
  obtain ⟨hframe, hmaps, hrun, hlevel, htimeout, hmisuse⟩ := exec_writesOnlyIts hi hsample hx
  exact ⟨hframe, hmaps, hrun, hlevel, htimeout, hmisuse⟩

/-! ### The sticky bits (R130, R756) -/

/-- No bit of STATUS is cleared on the way from `s` to `t`. -/
def KeepsStatus (s t : State) : Prop :=
  (s.misuse = true → t.misuse = true) ∧ (s.illegal = true → t.illegal = true) ∧
    (s.ovf = true → t.ovf = true)

section KeepsStatus

variable {s t u : State}

theorem KeepsStatus.refl (s : State) : KeepsStatus s s := ⟨id, id, id⟩

theorem setOvf_keepsStatus (s : State) : KeepsStatus s (setOvf s) := ⟨id, id, fun _ => rfl⟩

theorem putTrusted_keepsStatus (s : State) (a : U24) : KeepsStatus s (putTrusted s a) := by
  rcases putTrusted_cases s a with ⟨-, h⟩ | ⟨-, -, h⟩ <;> rw [h]
  · exact ⟨id, id, id⟩
  · exact setOvf_keepsStatus s

theorem putCandidate_keepsStatus (s : State) (a : U24) (r : CandidateEntry) :
    KeepsStatus s (putCandidate s a r).2 := by
  rcases putCandidate_cases s a r with ⟨-, h⟩ | ⟨-, h⟩ <;> rw [h]
  · exact ⟨id, id, id⟩
  · exact setOvf_keepsStatus s

theorem validatePi_keepsStatus (s : State) (d : DownlinkFormat) (f : Frame) :
    KeepsStatus s (validatePi s d f).2 := by
  rcases validatePi_cases s d f with ⟨-, h⟩ | ⟨-, -, h⟩ | ⟨-, -, h⟩ <;> rw [h]
  · exact .refl s
  · exact .refl s
  · exact putTrusted_keepsStatus s (getIcao s.cfg f)

theorem validateAp_keepsStatus (s : State) (d : DownlinkFormat) (f : Frame) :
    KeepsStatus s (validateAp s d f).2 := by
  rcases validateAp_cases s d f with ⟨-, h⟩ | ⟨-, -, h⟩ | ⟨-, -, -, h⟩ | ⟨-, -, -, h⟩ <;> rw [h]
  · exact ⟨id, id, id⟩
  · exact putTrusted_keepsStatus (dropCandidate s (syndrome24 f)) (syndrome24 f)
  · exact ⟨id, id, id⟩
  · exact putCandidate_keepsStatus s _ _

theorem validate_keepsStatus (s : State) (f : Frame) : KeepsStatus s (validate s f).2 := by
  rw [validate_eq]
  split
  · exact validatePi_keepsStatus s _ f
  · exact validateAp_keepsStatus s _ f

theorem receiveFrame_keepsStatus (s : State) (f : Frame) : KeepsStatus s (receiveFrame s f).2 := by
  rcases receiveFrame_cases s f with ⟨-, h⟩ | ⟨-, -, h⟩ | ⟨-, -, -, h⟩ | ⟨-, -, -, h⟩ <;> rw [h]
  case inr.inr.inr => exact validate_keepsStatus s f
  all_goals exact .refl s

theorem injectFrame_keepsStatus (s : State) (l : BitVec 4) (p : Payload) :
    KeepsStatus s (injectFrame s l p).2 := by
  rcases injectFrame_cases s l p with
    ⟨-, h⟩ | ⟨-, -, h⟩ | ⟨-, -, -, h⟩ | ⟨-, -, -, -, h⟩ | ⟨-, -, -, -, h⟩ <;> rw [h]
  case inr.inr.inr.inr => exact validate_keepsStatus s _
  all_goals exact .refl s

/-- The ring, the cursor and the slicer's registers hold no bit of STATUS. -/
theorem sampleStep_keepsStatus (s : State) (i q : Byte) : KeepsStatus s (sampleStep s i q).2 := by
  rcases sampleStep_cases s i q with ⟨-, h⟩ | ⟨-, _, -, h⟩ | ⟨-, f, -, h⟩ <;> rw [h]
  · exact ⟨id, id, id⟩
  · exact ⟨id, id, id⟩
  · exact validate_keepsStatus (sliceWindow (writeSample s i q)).2 f

/-- An error sets its bit and clears none. -/
theorem runCommand_keepsStatus {bad misused : Bool} {v : U32}
    (h : runCommand bad misused (respond u v) s = .next t) (hu : KeepsStatus s u) :
    KeepsStatus s t := by
  rcases runCommand_cases bad misused (respond u v) s with ⟨-, hx⟩ | ⟨-, -, hx⟩ | ⟨-, -, hx⟩ <;>
    cases hx.symm.trans h
  · exact ⟨id, fun _ => rfl, id⟩
  · exact ⟨fun _ => rfl, id, id⟩
  · exact hu

theorem whenPortFree_keepsStatus {x : Host.Outcome State Fault Refusal}
    (h : whenPortFree s x = .next t) (hx : x = .next t → KeepsStatus s t) : KeepsStatus s t := by
  rcases whenPortFree_cases s x with ⟨-, -, hw⟩ | ⟨-, hw⟩
  · cases hw.symm.trans h
    exact .refl s
  · exact hx (hw.symm.trans h)

theorem reporting_keepsStatus {i : Instr} (hi : onlyAnswers i = true) (hx : exec i s = .next t) :
    KeepsStatus s t := by
  obtain ⟨hcommand, hport, -⟩ := isCommand_of_onlyAnswers hi
  obtain ⟨u, v, hrun, -, hu⟩ := command_endsByChecks (s := s) hcommand (.inr hport)
  rw [hu hi] at hrun
  exact runCommand_keepsStatus (hrun.symm.trans hx) (.refl s)

theorem notCommand_keepsStatus {i : Instr} (hi : i.isCommand = false) (hx : exec i s = .next t) :
    KeepsStatus s t := by
  rcases notCommand_cases hi s with ⟨x, q, h⟩ | ⟨f, -, h⟩ <;> rw [h] at hx
  · unfold execStreamSample at hx
    split at hx <;> cases hx
    · exact sampleStep_keepsStatus s x q
    · exact .refl s
  · refine whenPortFree_keepsStatus hx fun hf => ?_
    cases hf
    exact receiveFrame_keepsStatus s f

theorem exec_keepsStatus {i : Instr} (hx : exec i s = .next t) : KeepsStatus s t := by
  cases i with
  | start | stop | settmo | sweep => exact runCommand_keepsStatus hx ⟨id, id, id⟩
  | setlvl h rsv level =>
    rw [exec, execSetlvl] at hx
    split at hx
    · exact runCommand_keepsStatus hx ⟨id, id, id⟩
    · cases hx
      exact ⟨id, fun _ => rfl, id⟩
  | sample h rsv x q =>
    exact whenPortFree_keepsStatus hx fun hrun =>
      runCommand_keepsStatus hrun (sampleStep_keepsStatus s x q)
  | inject h imm p =>
    exact whenPortFree_keepsStatus hx fun hrun =>
      runCommand_keepsStatus hrun (injectFrame_keepsStatus s h.len p)
  | nop | mag | crc | syn | errbit | getdf | geticao | query | read | reserved =>
    exact reporting_keepsStatus rfl hx
  | streamSample | df0 | df4 | df5 | df11 | df16 | df17 | df18 | df20 | df21 | df24 | dfInvalid =>
    exact notCommand_keepsStatus rfl hx

end KeepsStatus

/-- The turns, the queues and the time input are outside STATUS, and of the agents only reset writes it
other than through an instruction. -/
theorem step_keepsStatus {s t : State} (hx : step s = .next t)
    (hreset : ∀ (u : Turn) (rest : List Turn), s.sched = u :: rest → u.agent ≠ .rst) :
    KeepsStatus s t := by
  rcases step_next_cases hx with ⟨-, rfl⟩ | ⟨u, rest, hsched, hturn⟩
  · exact .refl t
  · rcases hturn with rfl | ⟨-, rfl⟩ | ⟨-, ⟨hrst, -⟩ | ⟨-, -, rfl⟩ | ⟨-, -, w, more, -, hexec⟩ |
      ⟨-, c, more, -, -, hexec⟩⟩
    · exact ⟨id, id, id⟩
    · exact ⟨id, id, id⟩
    · exact absurd hrst (hreset u rest hsched)
    · exact ⟨id, id, id⟩
    · exact (exec_keepsStatus hexec :)
    · exact (exec_keepsStatus hexec :)

/-- Settles O59. -/
theorem statusBitsAreSticky : Obligations.StatusBitsAreSticky := by
  unfold Obligations.StatusBitsAreSticky
  exact fun s t => step_keepsStatus

end Sys2Proof.Machine
end

section
/-!
PROOFS of the reset and hazards family (70_reset_and_hazards.md R900, R911): the state that reset leaves,
and the samples after it, before the ring is full.
-/

namespace Sys2Proof.Machine

open Sys2Proof.Claims

/-! ### Reset (R900) -/

/-- Settles O48. -/
theorem resetSetsEveryRegister : Obligations.ResetSetsEveryRegister := by
  unfold Obligations.ResetSetsEveryRegister
  intro s now rest hw hsched hnow hsum
  have hmove : nextMove s = .acts (resetStep { s with sched := rest, now := now }) :=
    (nextMove_of_sched hsched).trans (atTime_of_le _ _ _ hnow)
  have hsweep : addTicks now s.cfg.sweepPeriod =
      BitVec.ofNat 64 (now.toNat + 10 * s.cfg.ticksPerSecond) := if_pos hsum
  rw [step_of_acts hw hmove, ← hsweep]
  rfl

/-- The reset step at time 0 in the reference configuration leads to the reset state (log 5). -/
theorem resetStep_reset : resetStep State.reset = State.reset := by
  have hsum : State.reset.now.toNat + State.reset.cfg.sweepPeriod < 2 ^ 64 := by decide
  rw [resetStep, addTicks_of_lt hsum]
  rfl

/-- Settles O58: the invariants are those of every reset step. -/
theorem resetStateMeetsTheInvariants : Obligations.ResetStateMeetsTheInvariants := by
  unfold Obligations.ResetStateMeetsTheInvariants
  have hreset := resetStep_reset
  exact ⟨hreset ▸ resetStep_mapsOk _, hreset ▸ resetStep_countsOk _, hreset ▸ resetStep_timesOk _,
    hreset ▸ resetStep_outOk _, hreset ▸ resetStep_capacityOk _, rfl, rfl⟩

/-! ### Warm-up (R911) -/

/-- R552 asks the oldest sample of the window to be above the next one. -/
theorem preamble_of_ringAt_zero {ring : Vector Mag 240} {p : Fin 240} (h : ringAt ring p 0 = 0) :
    preamble ring p = false := by
  rw [Bool.eq_false_iff, ne_eq, preamble_iff, preambleShape_iff, h]
  rintro ⟨⟨hgt, -⟩, -⟩
  exact Nat.not_lt_zero _ hgt

/-- The sample goes to the entry that the cursor leaves behind. -/
theorem writeSample_zerosAhead {s : State} (i q : Byte)
    (hzero : ∀ j : Nat, s.cursor.val ≤ j → ∀ h : j < 240, s.ring[j] = 0#16) (j : Nat)
    (hj : s.cursor.val + 1 ≤ j) (h : j < 240) : (writeSample s i q).ring[j] = 0#16 := by
  have hne : (⟨j, h⟩ : Fin 240) ≠ s.cursor := fun heq => by
    have hval : j = s.cursor.val := congrArg Fin.val heq
    omega
  exact (writeSample_ring_of_ne s i q hne).trans (hzero j (by omega) h)

/-- Settles O32. -/
theorem warmUpNeverHits : Obligations.WarmUpNeverHits := by
  unfold Obligations.WarmUpNeverHits
  intro s t i q x hzero hlt hx
  have hcursor : (writeSample s i q).cursor.val = s.cursor.val + 1 := by
    rw [writeSample_cursor_val, Nat.mod_eq_of_lt (by omega)]
  have hahead := writeSample_zerosAhead i q hzero
  have holdest : ringAt (writeSample s i q).ring (writeSample s i q).cursor 0 = 0 := by
    have hpos : ((writeSample s i q).cursor.val + 0) % 240 = s.cursor.val + 1 := by omega
    simp only [ringAt, hpos, hahead _ le_rfl (by omega)]
    rfl
  rw [sampleStep_of_noPreamble (preamble_of_ringAt_zero holdest)] at hx
  cases hx
  exact ⟨rfl, hcursor, rfl, rfl, fun j hj => hahead j (hcursor ▸ hj)⟩

end Sys2Proof.Machine
end
